-- ==== Sys2Proof/Word.lean ====
section
/-!
DEFINITION. Sys2Proof/Word.lean: the words of AES128-RFP and the shapes its registers are made of.

A byte and a bus word are bit vectors, because the spec shifts, masks and concatenates them (R12, R13).  A 16-byte
block is "a 4×4 byte matrix in column-major order" (R15): four columns of four bytes.  A lookup table is 256 bytes
(R24).  Everything that computes with these shapes stands under Machine/.
-/

namespace Sys2Proof

/-- A byte: an unsigned integer 0..255 (R12), and a field element of GF(2^8) (R14). -/
abbrev Byte := BitVec 8

/-- A 32-bit bus word and command word (R42, R70). -/
abbrev Word := BitVec 32

/-- An offset into the 64-byte register window (R41): six bits, so that every value lies in the window. -/
abbrev Offset := BitVec 6

/-- Four bytes `(b0, b1, b2, b3)`: a column of a block, a word of the key schedule, or a row of a 4×4 matrix
(R15, R160, R174). -/
structure Vec4 where
  b0 : Byte
  b1 : Byte
  b2 : Byte
  b3 : Byte
  deriving DecidableEq, Repr

/-- A block value (state, key or round key): four columns; byte `r + 4*c` is row `r` of column `c` (R15). -/
structure Block where
  c0 : Vec4
  c1 : Vec4
  c2 : Vec4
  c3 : Vec4
  deriving DecidableEq, Repr

/-- A byte-to-byte lookup table of 256 entries (R24, R31). -/
abbrev Table := Vector Byte 256

/-- Four zero bytes. -/
def Vec4.zero : Vec4 := ⟨0, 0, 0, 0⟩

/-- Sixteen zero bytes. -/
def Block.zero : Block := ⟨.zero, .zero, .zero, .zero⟩

/-- A table of 256 zero bytes. -/
def Table.zero : Table := Vector.replicate 256 0

end Sys2Proof
end

