-- ==== Sys2Proof/Config.lean ====
section
/-!
DEFINITION. Sys2Proof/Config.lean: what an implementation fixes (R11) and the free values of the machine.

Every constant here is opaque and has no body: Lean can prove nothing about its value beyond its type.
-/

namespace Sys2Proof

/-- How far `RMAX` lies above its least value 10: a number 0..245 that the implementation fixes (R11, U6). -/
opaque Config.rmaxExtra : Fin 246

/-- `RMAX`, the largest legal round count: OPEN, with 10 <= RMAX <= 255 (R11). -/
def Config.rmax : Nat := Config.rmaxExtra.val + 10

theorem Config.rmax_ge : 10 ≤ Config.rmax := by
  unfold Config.rmax; omega

theorem Config.rmax_le : Config.rmax ≤ 255 := by
  have h := Config.rmaxExtra.isLt
  unfold Config.rmax; omega

/-- `BASE`, the bus address of the register window: OPEN, chosen by the platform (R11, R41). -/
opaque Config.base : Nat

/-- The aliases of the window: the offset, if any, at which the platform lets an address outside the 64 bytes from BASE
reach the block.  OPEN: "the platform decides where the window sits and whether it is aliased" (R41, log entry 10). -/
opaque Config.windowAlias : Nat → Option Offset

/-- `T_SBOX` less one; see `Config.tSbox`. -/
opaque Config.tSboxExtra : Nat

/-- `T_SBOX`, a lower bound on the steps from reset until the tables are ready: OPEN, at least 1 (R11).  "no rule
depends on its value": nothing in the model reads it (log entry 4). -/
def Config.tSbox : Nat := Config.tSboxExtra + 1

/-- `T_CMD(op)` less one; see `Config.tCmd`. -/
opaque Config.tCmdExtra : Byte → Nat

/-- `T_CMD(op)`, a lower bound on the steps from issue to completion of a command with opcode `op`: OPEN, at least 1
(R11).  "no rule depends on its value": nothing in the model reads it (log entry 4). -/
def Config.tCmd (op : Byte) : Nat := Config.tCmdExtra op + 1

/-- The FREE VALUE that the `n`-th read of ST or GFR while BUSY = 1 returns: "an unspecified 32-bit value. A model
draws it freely at each read" (R55, U1).  `n` is the counter `draws` of State, which every such read advances, so
that two reads may differ (log entry 3). -/
opaque Config.busyRead : Nat → Word

end Sys2Proof
end

