-- ==== Sys2Proof/Machine/Operands.lean ====
section
/-!
DEFINITION. Sys2Proof/Machine/Operands.lean: how values are addressed and laid out: the bytes and columns of a block
(R15, R16), the bus words of a block (R43), table entries, and the registers of the window (R41, R42, R45).

Commands themselves have only byte operands, "used as they are: no sign extension, scaling or shifting" (R72); no
command names a register.
-/

namespace Sys2Proof

/-! ## Columns and blocks (R15) -/

/-- Byte `r` of a vector. -/
def Vec4.row (v : Vec4) (r : Fin 4) : Byte :=
  match r with
  | 0 => v.b0
  | 1 => v.b1
  | 2 => v.b2
  | 3 => v.b3

/-- The four bytes in order. -/
def Vec4.toList (v : Vec4) : List Byte := [v.b0, v.b1, v.b2, v.b3]

/-- Apply a function to each byte. -/
def Vec4.map (f : Byte → Byte) (v : Vec4) : Vec4 := ⟨f v.b0, f v.b1, f v.b2, f v.b3⟩

/-- Byte-wise exclusive or. -/
def Vec4.xor (v w : Vec4) : Vec4 := ⟨v.b0 ^^^ w.b0, v.b1 ^^^ w.b1, v.b2 ^^^ w.b2, v.b3 ^^^ w.b3⟩

/-- `col(v, c)` (R15). -/
def Block.col (v : Block) (c : Fin 4) : Vec4 :=
  match c with
  | 0 => v.c0
  | 1 => v.c1
  | 2 => v.c2
  | 3 => v.c3

/-- The element at row `r`, column `c`, which is `v.byte[r + 4*c]` (R15). -/
def Block.at (v : Block) (r c : Fin 4) : Byte := (v.col c).row r

/-- `v.byte[i]`: byte i is at row `i%4` of column `i/4` (R15). -/
def Block.byte (v : Block) (i : Fin 16) : Byte := v.at ⟨i.val % 4, by omega⟩ ⟨i.val / 4, by omega⟩

/-- The block whose element at row `r`, column `c` is `f r c`. -/
def Block.build (f : Fin 4 → Fin 4 → Byte) : Block :=
  ⟨⟨f 0 0, f 1 0, f 2 0, f 3 0⟩, ⟨f 0 1, f 1 1, f 2 1, f 3 1⟩, ⟨f 0 2, f 1 2, f 2 2, f 3 2⟩, ⟨f 0 3, f 1 3, f 2 3, f 3 3⟩⟩

/-- Apply a function to each byte: the 16 independent lanes of R177. -/
def Block.map (f : Byte → Byte) (v : Block) : Block := ⟨v.c0.map f, v.c1.map f, v.c2.map f, v.c3.map f⟩

/-- Apply a function to each column: the 4 independent column lanes of R177. -/
def Block.mapCols (f : Vec4 → Vec4) (v : Block) : Block := ⟨f v.c0, f v.c1, f v.c2, f v.c3⟩

/-- Byte-wise exclusive or of two blocks. -/
def Block.xor (v w : Block) : Block := ⟨v.c0.xor w.c0, v.c1.xor w.c1, v.c2.xor w.c2, v.c3.xor w.c3⟩

/-- The block with column `c` replaced. -/
def Block.setCol (v : Block) (c : Fin 4) (x : Vec4) : Block :=
  match c with
  | 0 => { v with c0 := x }
  | 1 => { v with c1 := x }
  | 2 => { v with c2 := x }
  | 3 => { v with c3 := x }

/-- The block that a 32-digit hex string denotes, read as one number: "The first two digits are byte 0 and the last
two are byte 15" (R16). -/
def Block.ofHex (n : Nat) : Block :=
  .build fun r c => BitVec.ofNat 8 (n >>> (8 * (15 - (r.val + 4 * c.val))))

/-! ## Bus words (R43) -/

/-- Pack four bytes little-endian: byte `j` in bits `[8j+7:8j]` (R43). -/
def Vec4.toWord (v : Vec4) : Word := (((v.b3 ++ v.b2 : BitVec 16) ++ v.b1 : BitVec 24) ++ v.b0 : BitVec 32)

/-- Unpack a bus word: byte `j` is `v[8j+7:8j]` (R51, R52). -/
def Vec4.ofWord (w : Word) : Vec4 :=
  ⟨w.extractLsb' 0 8, w.extractLsb' 8 8, w.extractLsb' 16 8, w.extractLsb' 24 8⟩

/-- `word_k(v)`: "each bus word holds exactly one state column, with row 0 in its low byte" (R43). -/
def Block.word (v : Block) (k : Fin 4) : Word := (v.col k).toWord

/-- The block with bus word `k` written; "The other 12 bytes are unchanged" (R51, R52). -/
def Block.setWord (v : Block) (k : Fin 4) (w : Word) : Block := v.setCol k (Vec4.ofWord w)

/-- The block whose four bus words are given, as the host unpacks what it reads from ST0..ST3 (R43, R79). -/
def Block.ofWords (w0 w1 w2 w3 : Word) : Block := ⟨.ofWord w0, .ofWord w1, .ofWord w2, .ofWord w3⟩

/-! ## Table entries -/

/-- `T[a]`: the entry of a table at a byte index. -/
def Table.entry (t : Table) (a : Byte) : Byte := t[a.toNat]'a.isLt

/-! ## The register window -/

/-- The registers of the window (R42).  ST and KEY have four words each. -/
inductive WindowReg where
  | cmd
  | status
  | rounds
  | gfr
  | st (k : Fin 4)
  | key (k : Fin 4)
  deriving DecidableEq, Repr

/-- The register at an offset (R42); none at the reserved offsets 0x30-0x3F and at offsets that are not divisible
by 4. -/
def windowReg (off : Offset) : Option WindowReg :=
  match off.toNat with
  | 0x00 => some .cmd
  | 0x04 => some .status
  | 0x08 => some .rounds
  | 0x0c => some .gfr
  | 0x10 => some (.st 0)
  | 0x14 => some (.st 1)
  | 0x18 => some (.st 2)
  | 0x1c => some (.st 3)
  | 0x20 => some (.key 0)
  | 0x24 => some (.key 1)
  | 0x28 => some (.key 2)
  | 0x2c => some (.key 3)
  | _ => none

/-- The register a host access moves; none for a bus error: "The only legal host access is 4 bytes wide at an offset
divisible by 4, at an offset from 0x00 to 0x2C" (R45). -/
def accessReg (off : Offset) (size : Nat) : Option WindowReg :=
  if size = 4 then windowReg off else none

/-- The registers whose reads are unspecified while BUSY = 1: "ST0..ST3 or GFR" (R55). -/
def WindowReg.busyUnspecified : WindowReg → Bool
  | .gfr | .st _ => true
  | .cmd | .status | .rounds | .key _ => false

/-- The registers whose writes are dropped while BUSY = 1: "CMD, ROUNDS, ST_k or KEY_k" (R49, R56). -/
def WindowReg.busyProtected : WindowReg → Bool
  | .cmd | .rounds | .st _ | .key _ => true
  | .status | .gfr => false

/-- The bus address of an offset: the window starts at BASE (R41). -/
def busAddress (off : Offset) : Nat := Config.base + off.toNat

/-- The offset at which a bus address reaches the block: its distance from BASE in the 64 bytes of the window, and
elsewhere what the platform's aliasing gives, if anything; which addresses are aliases is free (R41, log entry 10). -/
def windowOffset (addr : Nat) : Option Offset :=
  if Config.base ≤ addr ∧ addr < Config.base + 64 then some (BitVec.ofNat 6 (addr - Config.base))
  else Config.windowAlias addr

end Sys2Proof
end

