-- ==== Sys2Proof/Machine/Gf.lean ====
section
/-!
DEFINITION. Sys2Proof/Machine/Gf.lean: the pure functions of 41_gf_arith.md: GF(2^8) arithmetic modulo 0x11B (R101 to
R104), the matrix-vector product (R106) and the affine transform (R107, R108).  Bit i of a byte is the coefficient of
x^i (R14).
-/

namespace Sys2Proof

/-! ## Field functions -/

/-- `gf_add(a, b) = a XOR b` (R101). -/
def gfAdd (a b : Byte) : Byte := a ^^^ b

/-- The 15-bit carry-less product: the first loop of R102. -/
def gfProduct (a b : Byte) : BitVec 15 :=
  [0, 1, 2, 3, 4, 5, 6, 7].foldl (fun p i => if b.getLsbD i then p ^^^ (a.zeroExtend 15 <<< i) else p) 0

/-- Reduction modulo 0x11B: the second loop of R102, d from 14 down to 8. -/
def gfReduce (p : BitVec 15) : Byte :=
  ([14, 13, 12, 11, 10, 9, 8].foldl (fun p d => if p.getLsbD d then p ^^^ (0x11b#15 <<< (d - 8)) else p) p).extractLsb' 0 8

/-- `gf_mul(a, b)` (R102). -/
def gfMul (a b : Byte) : Byte := gfReduce (gfProduct a b)

/-- The loop of `gf_pow` (R103): square and multiply until `n` is 0.  `fuel` bounds the turns; `n < 2^fuel` turns are
enough. -/
def gfPowLoop : (fuel : Nat) → (r s : Byte) → (n : Nat) → Byte
  | 0, r, _, _ => r
  | fuel + 1, r, s, n =>
    if n = 0 then r
    else gfPowLoop fuel (if n % 2 = 1 then gfMul r s else r) (gfMul s s) (n / 2)

/-- `gf_pow(base, e)`: the exponent is "reduced modulo 255 before iterating" (R103).  The reduced exponent is below
2^8, so eight turns of the loop reach 0. -/
def gfPow (base : Byte) (e : Nat) : Byte := gfPowLoop 8 0x01 base (e % 255)

/-- `gf_inv(a) = gf_pow(a, 254)` (R104). -/
def gfInv (a : Byte) : Byte := gfPow a 254

/-! ## Matrix functions -/

/-- The sum `gf_add over j of gf_mul(row[j], v[j])`; "The sum over an empty set is 0x00" (R106). -/
def gfDot (row v : List Byte) : Byte := (List.zipWith gfMul row v).foldl gfAdd 0

/-- `mat_vec(M, v)`, M given by its rows (R106). -/
def matVec (m : List (List Byte)) (v : List Byte) : List Byte := m.map fun row => gfDot row v

/-- A 4×4 matrix of field elements, given by its four rows. -/
structure Mat4 where
  row0 : Vec4
  row1 : Vec4
  row2 : Vec4
  row3 : Vec4
  deriving DecidableEq, Repr

/-- `mat_vec(M, v)` for a 4×4 matrix and a column (R106). -/
def Mat4.mulVec (m : Mat4) (v : Vec4) : Vec4 :=
  ⟨gfDot m.row0.toList v.toList, gfDot m.row1.toList v.toList, gfDot m.row2.toList v.toList, gfDot m.row3.toList v.toList⟩

/-! ## The affine transform -/

/-- Entry `AFF[i][j] = 0x01 iff (j - i) mod 8 is one of 0, 4, 5, 6, 7` (R107). -/
def affEntry (i j : Nat) : Byte := if (j + 8 - i) % 8 ∈ [0, 4, 5, 6, 7] then 0x01 else 0x00

/-- The affine S-box transform matrix AFF, 8×8 (R107). -/
def affMatrix : List (List Byte) := (List.range 8).map fun i => (List.range 8).map fun j => affEntry i j

/-- A byte as an 8-bit column vector: element i is bit i (R108). -/
def bitVector (x : Byte) : List Byte := (List.range 8).map fun i => if x.getLsbD i then 0x01 else 0x00

/-- Pack a bit vector back into a byte: the "sum over i of w[i] << i" (R108). -/
def packBits (w : List Byte) : Byte := (w.zipIdx.map fun p => p.1 <<< p.2).foldl (· + ·) 0

/-- `aff(x)`: multiply by AFF, add the constant vector 0x63, pack (R108). -/
def aff (x : Byte) : Byte := packBits (List.zipWith gfAdd (matVec affMatrix (bitVector x)) (bitVector 0x63))

end Sys2Proof
end

