-- ==== Sys2Proof/Machine/Cipher.lean ====
section
/-!
DEFINITION. Sys2Proof/Machine/Cipher.lean: the pure block functions: the round transforms (R170 to R176), the key
schedule (R160 to R163), the round compositions (R193 to R196) and block encrypt and decrypt (R190, R191).

A function that uses a table takes it as an argument: the machine passes its SBOX or ISBOX register.
-/

namespace Sys2Proof

/-! ## Round transforms -/

/-- `SubBytes(v)`: `SBOX[v.byte[i]]` in every byte (R170). -/
def subBytes (sbox : Table) (v : Block) : Block := v.map sbox.entry

/-- `InvSubBytes(v)`: `ISBOX[v.byte[i]]` in every byte (R171). -/
def invSubBytes (isbox : Table) (v : Block) : Block := v.map isbox.entry

/-- `ShiftRows(v)`: row r, column c takes the byte at column `(c + r) mod 4` (R172).  Addition of Fin 4 is modulo 4. -/
def shiftRows (v : Block) : Block := .build fun r c => v.at r (c + r)

/-- `InvShiftRows(v)`: row r, column c takes the byte at column `(c - r) mod 4` (R173). -/
def invShiftRows (v : Block) : Block := .build fun r c => v.at r (c - r)

/-- The matrix MC (R174). -/
def mixMatrix : Mat4 :=
  ⟨⟨0x02, 0x03, 0x01, 0x01⟩, ⟨0x01, 0x02, 0x03, 0x01⟩, ⟨0x01, 0x01, 0x02, 0x03⟩, ⟨0x03, 0x01, 0x01, 0x02⟩⟩

/-- The matrix IMC (R175). -/
def invMixMatrix : Mat4 :=
  ⟨⟨0x0e, 0x0b, 0x0d, 0x09⟩, ⟨0x09, 0x0e, 0x0b, 0x0d⟩, ⟨0x0d, 0x09, 0x0e, 0x0b⟩, ⟨0x0b, 0x0d, 0x09, 0x0e⟩⟩

/-- `MixColumns(v)`: every column multiplied by MC (R174). -/
def mixColumns (v : Block) : Block := v.mapCols mixMatrix.mulVec

/-- `InvMixColumns(v)`: every column multiplied by IMC (R175). -/
def invMixColumns (v : Block) : Block := v.mapCols invMixMatrix.mulVec

/-- `AddRoundKey(v, k)`: byte-wise XOR (R176). -/
def addRoundKey (v k : Block) : Block := v.xor k

/-! ## Key schedule -/

/-- `RotateLeft1(w)`: (w0, w1, w2, w3) becomes (w1, w2, w3, w0) (R160). -/
def rotateLeft1 (w : Vec4) : Vec4 := ⟨w.b1, w.b2, w.b3, w.b0⟩

/-- `SubWord(w)`: the forward S-box on each byte (R161). -/
def subWord (sbox : Table) (w : Vec4) : Vec4 := w.map sbox.entry

/-- `Rcon(r) = (gf_pow(0x02, r - 1), 0, 0, 0)` for r >= 1 (R162). -/
def rcon (r : Nat) : Vec4 := ⟨gfPow 0x02 (r - 1), 0, 0, 0⟩

/-- The body of the loop of R163: `rk[r]` from `rk[r-1]`. -/
def nextRoundKey (sbox : Table) (r : Nat) (prev : Block) : Block :=
  let t := ((subWord sbox (rotateLeft1 prev.c3))).xor (rcon r)
  let n0 := t.xor prev.c0
  let n1 := n0.xor prev.c1
  let n2 := n1.xor prev.c2
  let n3 := n2.xor prev.c3
  ⟨n0, n1, n2, n3⟩

/-- `rk[r]` of `expand(key, R)`, for every R >= r: "`rk[r]` from `rk[r-1]` and r alone" (R163). -/
def roundKey (sbox : Table) (key : Block) : Nat → Block
  | 0 => key
  | r + 1 => nextRoundKey sbox (r + 1) (roundKey sbox key r)

/-- `expand(key, R)`: the round keys `rk[0..R]` (R163). -/
def expand (sbox : Table) (key : Block) (rounds : Nat) : List Block :=
  (List.range (rounds + 1)).map (roundKey sbox key)

/-! ## Round compositions -/

/-- A middle encryption round, the loop body of R190 (R193). -/
def cipherRound (sbox : Table) (v k : Block) : Block := addRoundKey (mixColumns (shiftRows (subBytes sbox v))) k

/-- The last encryption round, "with no MixColumns" (R190, R194). -/
def cipherFinalRound (sbox : Table) (v k : Block) : Block := addRoundKey (shiftRows (subBytes sbox v)) k

/-- The inverse of a middle round, the loop body of R191 (R195). -/
def invCipherRound (isbox : Table) (v k : Block) : Block :=
  invSubBytes isbox (invShiftRows (invMixColumns (addRoundKey v k)))

/-- The inverse of the last round, the first step of R191 (R196). -/
def invCipherFinalRound (isbox : Table) (v k : Block) : Block := invSubBytes isbox (invShiftRows (addRoundKey v k))

/-! ## Block encrypt and decrypt -/

/-- The loop `for r in 1..n` of R190 over round keys `rk`. -/
def middleRounds (sbox : Table) (rk : Nat → Block) : Nat → Block → Block
  | 0, s => s
  | n + 1, s => cipherRound sbox (middleRounds sbox rk n s) (rk (n + 1))

/-- The loop `for i in n downto 1` of R191 over round keys `rk`. -/
def invMiddleRounds (isbox : Table) (rk : Nat → Block) : Nat → Block → Block
  | 0, s => s
  | n + 1, s => invMiddleRounds isbox rk n (invCipherRound isbox s (rk (n + 1)))

/-- `encrypt(p, key, R)`, for R >= 1 (R190). -/
def encrypt (sbox : Table) (p key : Block) (rounds : Nat) : Block :=
  let rk := roundKey sbox key
  cipherFinalRound sbox (middleRounds sbox rk (rounds - 1) (addRoundKey p (rk 0))) (rk rounds)

/-- `decrypt(c, key, R)`, for R >= 1 (R191). -/
def decrypt (sbox isbox : Table) (c key : Block) (rounds : Nat) : Block :=
  let rk := roundKey sbox key
  addRoundKey (invMiddleRounds isbox rk (rounds - 1) (invCipherFinalRound isbox c (rk rounds))) (rk 0)

end Sys2Proof
end

