-- ==== Sys2Proof/Machine/State.lean ====
section
/-!
DEFINITION. Sys2Proof/Machine/State.lean: the machine state (R24), why a step can stop, and the state after reset (R39).

The block has no program counter, no general registers and no memory (R37, R40); its only address space is the
register window, whose registers are the fields below.  The four last fields are the model's own: what the host and
the sequencer do next, what they do again and again after that, what the host has read so far, and how many free values
have been drawn.
-/

namespace Sys2Proof.Machine

/-- The causes of a recorded error, codes 1 to 6 of R221.  Code 0 is "no error recorded"; 7 to 15 are "never
produced". -/
inductive ErrorCode where
  /-- A command word fails decode (R222). -/
  | illegalCmd
  /-- A round-key command runs with KSV = 0 (R223). -/
  | noSchedule
  /-- A round-key command names k > ROUNDS (R224). -/
  | badIndex
  /-- A ROUNDS write outside 1..RMAX (R225). -/
  | badRounds
  /-- A write to CMD, ROUNDS, ST or KEY while BUSY = 1 (R226). -/
  | busyWrite
  /-- An access of the wrong width, misaligned, or to 0x30-0x3F (R227). -/
  | bus
  deriving DecidableEq, Repr

/-- One step of a run (R21): who moves. -/
inductive Turn where
  /-- The sequencer moves: it takes its `complete` step if BUSY = 1, and is idle otherwise. -/
  | sequencer
  /-- A `host` step: `MemRead(off, size)`. -/
  | read (off : Offset) (size : Nat)
  /-- A `host` step: `MemWrite(off, size, v)`. -/
  | write (off : Offset) (size : Nat) (v : Word)
  /-- The `reset` step (R240). -/
  | reset
  deriving DecidableEq, Repr

/-- The machine state. -/
structure State where
  /-- ST, the cipher state (R25). -/
  st : Block
  /-- KEY, the cipher key (R26). -/
  key : Block
  /-- RKS[0..RMAX], the round-key file, entry 0 first (R27). -/
  rks : List Block
  /-- KSV, the key-schedule-valid flag (R28). -/
  ksv : Bool
  /-- ROUNDS, an integer 1..RMAX (R29). -/
  rounds : Nat
  /-- GFR, the result of the last field or table-read command (R30). -/
  gfr : Byte
  /-- SBOX[0..255] (R31). -/
  sbox : Table
  /-- ISBOX[0..255] (R31). -/
  isbox : Table
  /-- SBRDY: the tables have been generated (R34). -/
  sbrdy : Bool
  /-- GEN: S-box generation is in progress; hidden (R36). -/
  gen : Bool
  /-- PEND: the command word issued and not yet completed; hidden (R36). -/
  pend : Option Word
  /-- ERR: an error has been recorded since the last clear (R33). -/
  err : Bool
  /-- ERRCODE: code of the first error since the last clear, 4 bits (R32, R33). -/
  errcode : BitVec 4
  /-- The model's own: the steps still to come, the next one first (log entry 1). -/
  turns : List Turn
  /-- The model's own: the turns that come again each time `turns` has run out; [] for a host whose program ends, and
  the loop of "A host that polls forever, or that keeps issuing commands" (R250, log entry 1). -/
  again : List Turn
  /-- The model's own: the values the host has read, the first one first; "the observation" of R250 (log entry 2). -/
  reads : List Word
  /-- The model's own: how many free values busy reads have drawn (R55, log entry 3). -/
  draws : Nat
  deriving DecidableEq, Repr

/-- Why the machine stops with a fault. -/
inductive Fault where
  /-- Raised by the five round-key commands (`withRoundKey`) when RKS has no entry at the index that passed the checks
  of R178.  No such state is a state of the block: RKS has RMAX+1 entries and ROUNDS <= RMAX (R24, R29), which
  `State.Inv` says and every step keeps.  Safe: the model stops, and only where the hardware cannot be. -/
  | noRoundKeyEntry
  deriving DecidableEq, Repr

/-- Why the machine has no meaning for an instruction. -/
inductive Refusal where
  /-- Raised by an arm of `exec` whose instruction is not modelled yet; no arm does.  Safe. -/
  | notModelled (mnemonic : String)
  deriving DecidableEq, Repr

/-- The state right after the reset event (R39).  RKS, SBOX and ISBOX are "unspecified" and unobservable there; the
model names zero bytes (DESIGN CHOICE, log entry 5).  Before a first turn is placed, only the sequencer moves. -/
def State.reset : State where
  st := Block.zero
  key := Block.zero
  rks := List.replicate (Config.rmax + 1) Block.zero
  ksv := false
  rounds := 10
  gfr := 0
  sbox := Table.zero
  isbox := Table.zero
  sbrdy := false
  gen := true
  pend := none
  err := false
  errcode := 0
  turns := []
  again := []
  reads := []
  draws := 0

end Sys2Proof.Machine
end

