-- ==== Sys2Proof/Machine/Flags.lean ====
section
/-!
DEFINITION. Sys2Proof/Machine/Flags.lean: BUSY, the STATUS word, and the sticky error record.

The block has no condition codes; "Its only flags are the STATUS fields" (R38).
-/

namespace Sys2Proof.Machine

/-- `BUSY = (GEN = 1) OR (PEND != none)`: derived, not state (R35). -/
def State.busy (s : State) : Bool := s.gen || s.pend.isSome

/-- STATUS: `{24'b0, ERRCODE[3:0], ERR, KSV, SBRDY, BUSY}` (R32, R48). -/
def State.status (s : State) : Word :=
  0#24 ++ s.errcode ++ BitVec.ofBool s.err ++ BitVec.ofBool s.ksv ++ BitVec.ofBool s.sbrdy ++ BitVec.ofBool s.busy

/-- The number of an error code (R221). -/
def ErrorCode.code : ErrorCode → BitVec 4
  | .illegalCmd => 1
  | .noSchedule => 2
  | .badIndex => 3
  | .badRounds => 4
  | .busyWrite => 5
  | .bus => 6

/-- "Record error c": `if ERR = 0 then { ERR <- 1; ERRCODE <- c }` (R33, R228). -/
def State.recordError (s : State) (c : ErrorCode) : State :=
  if s.err then s else { s with err := true, errcode := c.code }

/-- `ERR <- 0; ERRCODE <- 0` (R33, R211). -/
def State.clearError (s : State) : State := { s with err := false, errcode := 0 }

end Sys2Proof.Machine
end

