-- ==== Sys2Proof/Machine/Ops.lean ====
section
/-!
DEFINITION. Sys2Proof/Machine/Ops.lean: the named operations that the meanings share: register writes, the end of a
command (R23), taking an error (R228), the round-key precondition (R178), loading the schedule (R164, R197, R198), the
end of S-box generation (R151) and the reset event (R240).

An error is this block's exception: "An error does not transfer control, save state, change a mode or use a vector",
and "Rule R228 is the whole effect of an error" (R232).  There is no return from one: "CLRERR is the only return-like
action" (R233), and `State.clearError` is what it does.
-/

namespace Sys2Proof.Machine

/-- `ST <- v`. -/
def State.setSt (s : State) (v : Block) : State := { s with st := v }

/-- `GFR <- v`. -/
def State.setGfr (s : State) (v : Byte) : State := { s with gfr := v }

/-- The end of a command's completion: `PEND <- none` (R23). -/
def State.retire (s : State) : State := { s with pend := none }

/-- `raise CmdError(c)` in a completion step: "records error c and sets `PEND <- none`. It changes nothing else"
(R228). -/
def State.raise (s : State) (c : ErrorCode) : State := (s.recordError c).retire

/-- `require_rk(k)`: NO_SCHEDULE if KSV = 0, else BAD_INDEX if k > ROUNDS, else nothing (R178, R229). -/
def State.requireRk (s : State) (k : Byte) : Option ErrorCode :=
  if s.ksv = false then some .noSchedule
  else if s.rounds < k.toNat then some .badIndex
  else none

/-- A command that writes to ST a function of ST and RKS[k], after `require_rk(k)` (R178, R183, R193 to R196). -/
def withRoundKey (k : Byte) (s : State) (f : Block → Block → Block) : Host.Outcome State Fault Refusal :=
  match s.requireRk k with
  | some c => .next (s.raise c)
  | none =>
    match s.rks[k.toNat]? with
    | some rk => .next (s.setSt (f s.st rk)).retire
    | none => .fault .noRoundKeyEntry

/-- `rk <- expand(KEY, ROUNDS); for k in 0..ROUNDS: RKS[k] <- rk[k]; KSV <- 1` (R164).  Entries above ROUNDS are
unchanged (R27). -/
def State.loadSchedule (s : State) : State :=
  { s with rks := expand s.sbox s.key s.rounds ++ s.rks.drop (s.rounds + 1), ksv := true }

/-- The end of S-box generation: the tables of R150 are in place, `SBRDY <- 1; GEN <- 0` (R145, R151). -/
def State.endGeneration (s : State) : State :=
  { s with sbox := sboxTable, isbox := isboxTable, sbrdy := true, gen := false }

/-- The reset event: every piece of state takes its value of R39 "in one atomic update"; a pending command is
discarded (R240).  What the host has read, the turns to come and the count of free values are the model's own and stay
(log entries 1 to 3). -/
def State.resetEvent (s : State) : State :=
  { State.reset with turns := s.turns, again := s.again, reads := s.reads, draws := s.draws }

end Sys2Proof.Machine
end

