-- ==== Sys2Proof/Machine/HostPort.lean ====
section
/-!
DEFINITION. Sys2Proof/Machine/HostPort.lean: the host's accesses to the register window: MemRead (R48, R55), MemWrite
(R49 to R54, R56, R58) and bus errors (R45, R46).
-/

namespace Sys2Proof.Machine

/-- What a register of the window holds as a word, when it can be read (R48).  "A read of CMD returns 0" (R53). -/
def State.window (s : State) (r : WindowReg) : Word :=
  match r with
  | .cmd => 0
  | .status => s.status
  | .rounds => BitVec.ofNat 32 s.rounds
  | .gfr => s.gfr.zeroExtend 32
  | .st k => s.st.word k
  | .key k => s.key.word k

/-- The host has read `v` (R250). -/
def State.observe (s : State) (v : Word) : State := { s with reads := s.reads ++ [v] }

/-- A read of ST or GFR while busy: a free value, "drawn freely at each read" (R55). -/
def State.observeFree (s : State) : State := { s.observe (Config.busyRead s.draws) with draws := s.draws + 1 }

/-- `MemRead(off, size)`: a bus error returns 0 and records BUS (R46); a legal read returns the register, with no side
effect (R48, R57). -/
def memRead (off : Offset) (size : Nat) (s : State) : State :=
  match accessReg off size with
  | none => (s.recordError .bus).observe 0
  | some r =>
    if r.busyUnspecified && s.busy then s.observeFree
    else s.observe (s.window r)

/-- The issue of a command: `PEND <- w`.  "The write is accepted even if w is not a valid command" (R58). -/
def State.issue (s : State) (w : Word) : State := { s with pend := some w }

/-- A write of ROUNDS while idle; `v` is the whole 32-bit word (R50). -/
def State.writeRounds (s : State) (v : Word) : State :=
  if 1 ≤ v.toNat ∧ v.toNat ≤ Config.rmax then { s with rounds := v.toNat, ksv := false }
  else s.recordError .badRounds

/-- A write of ST_k while idle: four bytes; "The other 12 bytes of ST are unchanged, and KSV is unchanged" (R51). -/
def State.writeSt (s : State) (k : Fin 4) (v : Word) : State := { s with st := s.st.setWord k v }

/-- A write of KEY_k while idle: four bytes, "then `KSV <- 0`" (R52). -/
def State.writeKey (s : State) (k : Fin 4) (v : Word) : State := { s with key := s.key.setWord k v, ksv := false }

/-- A write that reaches its register (R49). -/
def State.writeReg (s : State) (r : WindowReg) (v : Word) : State :=
  match r with
  | .cmd => s.issue v
  | .status => s
  | .gfr => s
  | .rounds => s.writeRounds v
  | .st k => s.writeSt k v
  | .key k => s.writeKey k v

/-- `MemWrite(off, size, v)`: a bus error changes no register and records BUS (R46); a write to CMD, ROUNDS, ST or KEY
while busy is dropped and records BUSY_WRITE (R56); else the register is written (R49).  BUS is checked first (R230). -/
def memWrite (off : Offset) (size : Nat) (v : Word) (s : State) : State :=
  match accessReg off size with
  | none => s.recordError .bus
  | some r =>
    if r.busyProtected && s.busy then s.recordError .busyWrite
    else s.writeReg r v

end Sys2Proof.Machine
end

