-- ==== Sys2Proof/Syntax.lean ====
section
/-!
DEFINITION. Sys2Proof/Syntax.lean: the commands (R74), one constructor of Instr per row of spec/opcode_table.json, and
the list of their operation names.
-/

namespace Sys2Proof

/-- The 24 operations of the opcode map (R74). -/
inductive Opcode where
  | nop | clrerr
  | gfadd | gfmul | gfinv | gfpow | gfaff
  | sbox | isbox
  | keyexp
  | subbytes | shiftrows | mixcolumns | addrk | invsubbytes | invshiftrows | invmixcolumns | addkey
  | round | finalround | invround | invfinalround
  | enc | dec
  deriving DecidableEq, Repr

/-- A command with its operands.  An operand is a byte: a field element `a` or `b`, an exponent `e`, or a round-key
index `k` (R71, R72).  Operand bytes cannot be ill-formed, so every value of this type is a legal command. -/
inductive Instr where
  /-- R210 -/
  | nop
  /-- R211 -/
  | clrerr
  /-- R110 -/
  | gfadd (a b : Byte)
  /-- R111 -/
  | gfmul (a b : Byte)
  /-- R112 -/
  | gfinv (a : Byte)
  /-- R113 -/
  | gfpow (a e : Byte)
  /-- R114 -/
  | gfaff (a : Byte)
  /-- R152 -/
  | sbox (a : Byte)
  /-- R153 -/
  | isbox (a : Byte)
  /-- R164 -/
  | keyexp
  /-- R180 -/
  | subbytes
  /-- R181 -/
  | shiftrows
  /-- R182 -/
  | mixcolumns
  /-- R183 -/
  | addrk (k : Byte)
  /-- R184 -/
  | invsubbytes
  /-- R185 -/
  | invshiftrows
  /-- R186 -/
  | invmixcolumns
  /-- R187 -/
  | addkey
  /-- R193 -/
  | round (k : Byte)
  /-- R194 -/
  | finalround (k : Byte)
  /-- R195 -/
  | invround (k : Byte)
  /-- R196 -/
  | invfinalround (k : Byte)
  /-- R197 -/
  | enc
  /-- R198 -/
  | dec
  deriving DecidableEq, Repr

end Sys2Proof
end

