-- ==== Sys2Proof/WellFormed.lean ====
section
/-!
DEFINITION. Sys2Proof/WellFormed.lean: commands as a person writes them, and the assembler's checks on them.

An Instr is well formed by its type.  What can be ill formed is the assembler's input (R78): a mnemonic with a list of
numbers, where the assembler "rejects an operand outside 0..255, a missing operand and an extra operand".  The words
that are ill formed are what the decoder rejects (Decode.lean).
-/

namespace Sys2Proof

/-- An assembler line before any check: an operation and the numbers written after it (R78). -/
structure AsmLine where
  op       : Opcode
  operands : List Nat
  deriving DecidableEq, Repr

/-- Why the assembler rejects a line (R78). -/
inductive AsmError where
  /-- A used operand is not written. -/
  | missingOperand
  /-- More operands are written than the command uses. -/
  | extraOperand
  /-- A number lies outside 0..255. -/
  | operandRange
  /-- The line's first word is no mnemonic of R74. -/
  | unknownMnemonic
  /-- An operand is not a number in decimal or 0x hex. -/
  | notANumber
  deriving DecidableEq, Repr

/-- How many operands a line of this operation must carry: one for each field it uses (R74, R78). -/
def Opcode.arity : Opcode → Nat
  | .gfadd | .gfmul | .gfpow => 2
  | .gfinv | .gfaff | .sbox | .isbox => 1
  | .addrk | .round | .finalround | .invround | .invfinalround => 1
  | .nop | .clrerr | .keyexp | .subbytes | .shiftrows | .mixcolumns => 0
  | .invsubbytes | .invshiftrows | .invmixcolumns | .addkey | .enc | .dec => 0

/-- What is wrong with a line, if anything (R78). -/
def AsmLine.check (l : AsmLine) : Option AsmError :=
  if l.operands.length < l.op.arity then some .missingOperand
  else if l.op.arity < l.operands.length then some .extraOperand
  else if l.operands.all (· < 256) then none
  else some .operandRange

/-- A line is well formed when the assembler finds nothing wrong with it (R78). -/
def AsmLine.wellFormed (l : AsmLine) : Bool := l.check.isNone

end Sys2Proof
end

