-- ==== Sys2Proof/Decode.lean ====
section
/-!
DEFINITION. Sys2Proof/Decode.lean: the decoder of command words (R71 to R77), total on all 32-bit words and rejecting
by name, and after it the encoder, the assembler's last step, and the opcode table's masks.
-/

namespace Sys2Proof

/-! ## Fields of a command word (R71) -/

/-- OP, bits 7:0. -/
def fieldOp (w : Word) : Byte := w.extractLsb' 0 8

/-- A, bits 15:8. -/
def fieldA (w : Word) : Byte := w.extractLsb' 8 8

/-- B, bits 23:16. -/
def fieldB (w : Word) : Byte := w.extractLsb' 16 8

/-- RSV, bits 31:24. -/
def fieldRsv (w : Word) : Byte := w.extractLsb' 24 8

/-- The word `{RSV, B, A, OP}` (R71, R78). -/
def commandWord (rsv b a op : Byte) : Word := (((rsv ++ b : BitVec 16) ++ a : BitVec 24) ++ op : BitVec 32)

/-! ## Opcode numbers (R74) -/

/-- The opcode number of an operation (R74). -/
def Opcode.code : Opcode → Byte
  | .nop => 0x00
  | .clrerr => 0x01
  | .gfadd => 0x08
  | .gfmul => 0x09
  | .gfinv => 0x0a
  | .gfpow => 0x0b
  | .gfaff => 0x0c
  | .sbox => 0x10
  | .isbox => 0x11
  | .keyexp => 0x18
  | .subbytes => 0x20
  | .shiftrows => 0x21
  | .mixcolumns => 0x22
  | .addrk => 0x23
  | .invsubbytes => 0x24
  | .invshiftrows => 0x25
  | .invmixcolumns => 0x26
  | .addkey => 0x27
  | .round => 0x28
  | .finalround => 0x29
  | .invround => 0x2a
  | .invfinalround => 0x2b
  | .enc => 0x30
  | .dec => 0x31

/-- The operation of an opcode number; every other number is reserved (R74, R76). -/
def Opcode.ofCode (op : Byte) : Option Opcode :=
  match op.toNat with
  | 0x00 => some .nop
  | 0x01 => some .clrerr
  | 0x08 => some .gfadd
  | 0x09 => some .gfmul
  | 0x0a => some .gfinv
  | 0x0b => some .gfpow
  | 0x0c => some .gfaff
  | 0x10 => some .sbox
  | 0x11 => some .isbox
  | 0x18 => some .keyexp
  | 0x20 => some .subbytes
  | 0x21 => some .shiftrows
  | 0x22 => some .mixcolumns
  | 0x23 => some .addrk
  | 0x24 => some .invsubbytes
  | 0x25 => some .invshiftrows
  | 0x26 => some .invmixcolumns
  | 0x27 => some .addkey
  | 0x28 => some .round
  | 0x29 => some .finalround
  | 0x2a => some .invround
  | 0x2b => some .invfinalround
  | 0x30 => some .enc
  | 0x31 => some .dec
  | _ => none

/-! ## Decoding (R75) -/

/-- Does the command read operand field A? (the "uses" column of R74) -/
def Opcode.usesA : Opcode → Bool
  | .gfadd | .gfmul | .gfinv | .gfpow | .gfaff | .sbox | .isbox => true
  | .addrk | .round | .finalround | .invround | .invfinalround => true
  | .nop | .clrerr | .keyexp | .subbytes | .shiftrows | .mixcolumns => false
  | .invsubbytes | .invshiftrows | .invmixcolumns | .addkey | .enc | .dec => false

/-- Does the command read operand field B? (the "uses" column of R74) -/
def Opcode.usesB : Opcode → Bool
  | .gfadd | .gfmul | .gfpow => true
  | .nop | .clrerr | .gfinv | .gfaff | .sbox | .isbox | .keyexp => false
  | .subbytes | .shiftrows | .mixcolumns | .addrk | .invsubbytes | .invshiftrows | .invmixcolumns | .addkey => false
  | .round | .finalround | .invround | .invfinalround | .enc | .dec => false

/-- The command of an operation with the values of fields A and B; an operand the operation does not use is left
out (R74). -/
def Opcode.instr (op : Opcode) (a b : Byte) : Instr :=
  match op with
  | .nop => .nop
  | .clrerr => .clrerr
  | .gfadd => .gfadd a b
  | .gfmul => .gfmul a b
  | .gfinv => .gfinv a
  | .gfpow => .gfpow a b
  | .gfaff => .gfaff a
  | .sbox => .sbox a
  | .isbox => .isbox a
  | .keyexp => .keyexp
  | .subbytes => .subbytes
  | .shiftrows => .shiftrows
  | .mixcolumns => .mixcolumns
  | .addrk => .addrk a
  | .invsubbytes => .invsubbytes
  | .invshiftrows => .invshiftrows
  | .invmixcolumns => .invmixcolumns
  | .addkey => .addkey
  | .round => .round a
  | .finalround => .finalround a
  | .invround => .invround a
  | .invfinalround => .invfinalround a
  | .enc => .enc
  | .dec => .dec

/-- Why a word is illegal (R75, R76).  The hardware records the one code ILLEGAL_CMD for all four (R222). -/
inductive DecodeError where
  /-- OP is not in the table of R74. -/
  | reservedOpcode
  /-- RSV is not 0. -/
  | reservedField
  /-- The operation does not use A, and A is not 0. -/
  | unusedA
  /-- The operation does not use B, and B is not 0. -/
  | unusedB
  deriving DecidableEq, Repr

/-- Decode a command word (R75). -/
def decode (w : Word) : Except DecodeError Instr :=
  match Opcode.ofCode (fieldOp w) with
  | none => .error .reservedOpcode
  | some op =>
    if fieldRsv w ≠ 0 then .error .reservedField
    else if op.usesA = false ∧ fieldA w ≠ 0 then .error .unusedA
    else if op.usesB = false ∧ fieldB w ≠ 0 then .error .unusedB
    else .ok (op.instr (fieldA w) (fieldB w))

/-! ## Encoding (R71, R74, R78) -/

/-- The operation of a command. -/
def Instr.opcode : Instr → Opcode
  | .nop => .nop
  | .clrerr => .clrerr
  | .gfadd _ _ => .gfadd
  | .gfmul _ _ => .gfmul
  | .gfinv _ => .gfinv
  | .gfpow _ _ => .gfpow
  | .gfaff _ => .gfaff
  | .sbox _ => .sbox
  | .isbox _ => .isbox
  | .keyexp => .keyexp
  | .subbytes => .subbytes
  | .shiftrows => .shiftrows
  | .mixcolumns => .mixcolumns
  | .addrk _ => .addrk
  | .invsubbytes => .invsubbytes
  | .invshiftrows => .invshiftrows
  | .invmixcolumns => .invmixcolumns
  | .addkey => .addkey
  | .round _ => .round
  | .finalround _ => .finalround
  | .invround _ => .invround
  | .invfinalround _ => .invfinalround
  | .enc => .enc
  | .dec => .dec

/-- The byte that a command puts in field A; 0 where it does not use A (R73). -/
def Instr.operandA : Instr → Byte
  | .gfadd a _ | .gfmul a _ | .gfpow a _ => a
  | .gfinv a | .gfaff a | .sbox a | .isbox a => a
  | .addrk k | .round k | .finalround k | .invround k | .invfinalround k => k
  | .nop | .clrerr | .keyexp | .subbytes | .shiftrows | .mixcolumns => 0
  | .invsubbytes | .invshiftrows | .invmixcolumns | .addkey | .enc | .dec => 0

/-- The byte that a command puts in field B; 0 where it does not use B (R73). -/
def Instr.operandB : Instr → Byte
  | .gfadd _ b | .gfmul _ b => b
  | .gfpow _ e => e
  | .nop | .clrerr | .gfinv _ | .gfaff _ | .sbox _ | .isbox _ | .keyexp => 0
  | .subbytes | .shiftrows | .mixcolumns | .addrk _ => 0
  | .invsubbytes | .invshiftrows | .invmixcolumns | .addkey => 0
  | .round _ | .finalround _ | .invround _ | .invfinalround _ | .enc | .dec => 0

/-- The one word of a command: `{8'h00, B, A, OP}` (R73, R78). -/
def encode (i : Instr) : Word := commandWord 0 i.operandB i.operandA i.opcode.code

/-! ## Assembler text (R78) -/

/-- All operations, in the order of R74. -/
def Opcode.all : List Opcode :=
  [.nop, .clrerr, .gfadd, .gfmul, .gfinv, .gfpow, .gfaff, .sbox, .isbox, .keyexp,
   .subbytes, .shiftrows, .mixcolumns, .addrk, .invsubbytes, .invshiftrows, .invmixcolumns, .addkey]
  ++ [.round, .finalround, .invround, .invfinalround, .enc, .dec]

/-- The mnemonic of R74, as its characters. -/
def Opcode.mnemonic : Opcode → List Char
  | .nop => ['N', 'O', 'P']
  | .clrerr => ['C', 'L', 'R', 'E', 'R', 'R']
  | .gfadd => ['G', 'F', 'A', 'D', 'D']
  | .gfmul => ['G', 'F', 'M', 'U', 'L']
  | .gfinv => ['G', 'F', 'I', 'N', 'V']
  | .gfpow => ['G', 'F', 'P', 'O', 'W']
  | .gfaff => ['G', 'F', 'A', 'F', 'F']
  | .sbox => ['S', 'B', 'O', 'X']
  | .isbox => ['I', 'S', 'B', 'O', 'X']
  | .keyexp => ['K', 'E', 'Y', 'E', 'X', 'P']
  | .subbytes => ['S', 'U', 'B', 'B', 'Y', 'T', 'E', 'S']
  | .shiftrows => ['S', 'H', 'I', 'F', 'T', 'R', 'O', 'W', 'S']
  | .mixcolumns => ['M', 'I', 'X', 'C', 'O', 'L', 'U', 'M', 'N', 'S']
  | .addrk => ['A', 'D', 'D', 'R', 'K']
  | .invsubbytes => ['I', 'N', 'V', 'S', 'U', 'B', 'B', 'Y', 'T', 'E', 'S']
  | .invshiftrows => ['I', 'N', 'V', 'S', 'H', 'I', 'F', 'T', 'R', 'O', 'W', 'S']
  | .invmixcolumns => ['I', 'N', 'V', 'M', 'I', 'X', 'C', 'O', 'L', 'U', 'M', 'N', 'S']
  | .addkey => ['A', 'D', 'D', 'K', 'E', 'Y']
  | .round => ['R', 'O', 'U', 'N', 'D']
  | .finalround => ['F', 'I', 'N', 'A', 'L', 'R', 'O', 'U', 'N', 'D']
  | .invround => ['I', 'N', 'V', 'R', 'O', 'U', 'N', 'D']
  | .invfinalround => ['I', 'N', 'V', 'F', 'I', 'N', 'A', 'L', 'R', 'O', 'U', 'N', 'D']
  | .enc => ['E', 'N', 'C']
  | .dec => ['D', 'E', 'C']

/-- The value of a digit in the given base, 10 or 16 (either case of letter). -/
def digitValue (base : Nat) (c : Char) : Option Nat :=
  let n := c.toNat
  let v := if 48 ≤ n ∧ n ≤ 57 then some (n - 48)
    else if 97 ≤ n ∧ n ≤ 102 then some (n - 87)
    else if 65 ≤ n ∧ n ≤ 70 then some (n - 55)
    else none
  v.filter (· < base)

/-- The number that a list of digits denotes; none where a character is no digit of the base. -/
def digitsValue (base : Nat) : Nat → List Char → Option Nat
  | acc, [] => some acc
  | acc, c :: cs => (digitValue base c).bind fun v => digitsValue base (acc * base + v) cs

/-- A number in decimal or `0x` hex (R12, R78). -/
def readNumber : List Char → Option Nat
  | [] => none
  | ['0', 'x'] => none
  | '0' :: 'x' :: hex => digitsValue 16 0 hex
  | dec => digitsValue 10 0 dec

/-- The pieces of a text between the characters that `sep` marks. -/
def splitAt (sep : Char → Bool) : List Char → List (List Char)
  | [] => [[]]
  | c :: cs =>
    if sep c then [] :: splitAt sep cs
    else match splitAt sep cs with
      | [] => [[c]]
      | p :: ps => (c :: p) :: ps

/-- A text without the blanks at its two ends. -/
def trimBlanks (text : List Char) : List Char :=
  ((text.dropWhile (· == ' ')).reverse.dropWhile (· == ' ')).reverse

/-- The operand list of a line's tail: nothing, or numbers separated by commas, with blanks around them. -/
def readOperands (tail : List Char) : Option (List Nat) :=
  let text := trimBlanks tail
  if text.isEmpty then some [] else (splitAt (· == ',') text).mapM fun piece => readNumber (trimBlanks piece)

/-- Read one line of assembler text: `MNEMONIC`, a blank, then its operands (R78).  R78 is silent on further blanks:
that those at the two ends of a line, and around operands and commas, are skipped is a DESIGN CHOICE (log entry 17). -/
def readLine (line : List Char) : Except AsmError AsmLine :=
  let text := trimBlanks line
  let word := text.takeWhile (· != ' ')
  match Opcode.all.find? (·.mnemonic == word) with
  | none => .error .unknownMnemonic
  | some op =>
    match readOperands (text.drop word.length) with
    | none => .error .notANumber
    | some ns => .ok ⟨op, ns⟩

/-- The command of a well-formed line: its numbers in field order A then B (R78). -/
def AsmLine.toInstr (l : AsmLine) : Except AsmError Instr :=
  match l.check with
  | some e => .error e
  | none => .ok (l.op.instr (BitVec.ofNat 8 (l.operands.getD 0 0)) (BitVec.ofNat 8 (l.operands.getD 1 0)))

/-- Assemble a line of text to its command word (R78). -/
def assemble (text : List Char) : Except AsmError Word :=
  match readLine text with
  | .error e => .error e
  | .ok line =>
    match line.toInstr with
    | .error e => .error e
    | .ok i => .ok (encode i)

/-! ## The opcode table's masks (R75) -/

/-- `mask(op)`, as the "mask" column of spec/opcode_table.json gives it. -/
def Opcode.mask : Opcode → Word
  | .gfadd | .gfmul | .gfpow => 0xff0000ff
  | .gfinv | .gfaff | .sbox | .isbox => 0xffff00ff
  | .addrk | .round | .finalround | .invround | .invfinalround => 0xffff00ff
  | .nop | .clrerr | .keyexp | .subbytes | .shiftrows | .mixcolumns => 0xffffffff
  | .invsubbytes | .invshiftrows | .invmixcolumns | .addkey | .enc | .dec => 0xffffffff

/-- `match(op) = zext_32(op)`, the "match" column of spec/opcode_table.json. -/
def Opcode.pattern (op : Opcode) : Word := op.code.zeroExtend 32

/-! ## The host's view of the decoder -/

/-- The command that the decoder reads from an instruction whose bits are `w`, of which the table gives `nbits`; the
bits above `nbits` are 0.  Every command is one 32-bit word (R70), so a longer one is none. -/
def decodeTableWord (nbits w : Nat) : Option Instr :=
  let bits := w % 2 ^ nbits
  if bits < 2 ^ 32 then (decode (BitVec.ofNat 32 bits)).toOption else none

end Sys2Proof
end

