-- ==== Sys2Proof/Machine/Control.lean ====
section
/-!
DEFINITION. Sys2Proof/Machine/Control.lean: the meanings of NOP and CLRERR (R210, R211).
-/

namespace Sys2Proof.Machine

/-- NOP: "no effect"; it "still makes the block busy from issue to completion" (R210). -/
def execNop (s : State) : Host.Outcome State Fault Refusal := .next s.retire

/-- CLRERR: `ERR <- 0; ERRCODE <- 0` (R211). -/
def execClrerr (s : State) : Host.Outcome State Fault Refusal := .next s.clearError.retire

end Sys2Proof.Machine
end

