-- ==== Sys2Proof/Machine/FieldArith.lean ====
section
/-!
DEFINITION. Sys2Proof/Machine/FieldArith.lean: the meanings of GFADD, GFMUL, GFINV, GFPOW and GFAFF (R110 to R114).

"They read only their operand fields, write only GFR, set no flag".
-/

namespace Sys2Proof.Machine

/-- GFADD: `GFR <- gf_add(a, b)` (R110). -/
def execGfadd (a b : Byte) (s : State) : Host.Outcome State Fault Refusal := .next (s.setGfr (gfAdd a b)).retire

/-- GFMUL: `GFR <- gf_mul(a, b)` (R111). -/
def execGfmul (a b : Byte) (s : State) : Host.Outcome State Fault Refusal := .next (s.setGfr (gfMul a b)).retire

/-- GFINV: `GFR <- gf_inv(a)`; "a = 0 is not an error" (R112). -/
def execGfinv (a : Byte) (s : State) : Host.Outcome State Fault Refusal := .next (s.setGfr (gfInv a)).retire

/-- GFPOW: `GFR <- gf_pow(a, e)`, e an unsigned exponent 0..255 (R113). -/
def execGfpow (a e : Byte) (s : State) : Host.Outcome State Fault Refusal := .next (s.setGfr (gfPow a e.toNat)).retire

/-- GFAFF: `GFR <- aff(a)` (R114). -/
def execGfaff (a : Byte) (s : State) : Host.Outcome State Fault Refusal := .next (s.setGfr (aff a)).retire

end Sys2Proof.Machine
end

