-- ==== Sys2Proof/Machine/KeySchedule.lean ====
section
/-!
DEFINITION. Sys2Proof/Machine/KeySchedule.lean: the meaning of KEYEXP (R164).
-/

namespace Sys2Proof.Machine

/-- KEYEXP: expand KEY over ROUNDS rounds into RKS and set KSV; "ST and GFR are not touched" (R164). -/
def execKeyexp (s : State) : Host.Outcome State Fault Refusal := .next s.loadSchedule.retire

end Sys2Proof.Machine
end

