-- ==== Sys2Proof/Machine/Rounds.lean ====
section
/-!
DEFINITION. Sys2Proof/Machine/Rounds.lean: the meanings of the round commands and of ENC and DEC (R193 to R198).
-/

namespace Sys2Proof.Machine

/-- ROUND: `require_rk(k); ST <- AddRoundKey(MixColumns(ShiftRows(SubBytes(ST))), RKS[k])` (R193). -/
def execRound (k : Byte) (s : State) : Host.Outcome State Fault Refusal := withRoundKey k s (cipherRound s.sbox)

/-- FINALROUND: `require_rk(k); ST <- AddRoundKey(ShiftRows(SubBytes(ST)), RKS[k])` (R194). -/
def execFinalround (k : Byte) (s : State) : Host.Outcome State Fault Refusal :=
  withRoundKey k s (cipherFinalRound s.sbox)

/-- INVROUND: `require_rk(k); ST <- InvSubBytes(InvShiftRows(InvMixColumns(AddRoundKey(ST, RKS[k]))))` (R195). -/
def execInvround (k : Byte) (s : State) : Host.Outcome State Fault Refusal := withRoundKey k s (invCipherRound s.isbox)

/-- INVFINALROUND: `require_rk(k); ST <- InvSubBytes(InvShiftRows(AddRoundKey(ST, RKS[k])))` (R196). -/
def execInvfinalround (k : Byte) (s : State) : Host.Outcome State Fault Refusal :=
  withRoundKey k s (invCipherFinalRound s.isbox)

/-- ENC: expand the schedule into RKS, set KSV, and encrypt ST in place; "The schedule is always re-expanded from KEY,
whatever KSV was" (R197). -/
def execEnc (s : State) : Host.Outcome State Fault Refusal :=
  .next (s.loadSchedule.setSt (encrypt s.sbox s.st s.key s.rounds)).retire

/-- DEC: expand the schedule into RKS, set KSV, and decrypt ST in place (R198). -/
def execDec (s : State) : Host.Outcome State Fault Refusal :=
  .next (s.loadSchedule.setSt (decrypt s.sbox s.isbox s.st s.key s.rounds)).retire

end Sys2Proof.Machine
end

