-- ==== Sys2Proof/Machine/SboxRead.lean ====
section
/-!
DEFINITION. Sys2Proof/Machine/SboxRead.lean: the meanings of SBOX and ISBOX (R152, R153): "They read one table entry,
write only GFR and set no flag."
-/

namespace Sys2Proof.Machine

/-- SBOX: `GFR <- SBOX[a]` (R152). -/
def execSbox (a : Byte) (s : State) : Host.Outcome State Fault Refusal := .next (s.setGfr (s.sbox.entry a)).retire

/-- ISBOX: `GFR <- ISBOX[a]` (R153). -/
def execIsbox (a : Byte) (s : State) : Host.Outcome State Fault Refusal := .next (s.setGfr (s.isbox.entry a)).retire

end Sys2Proof.Machine
end

