-- ==== Sys2Proof/Machine/Transforms.lean ====
section
/-!
DEFINITION. Sys2Proof/Machine/Transforms.lean: the meanings of the single-transform commands (R180 to R187): "It reads
ST, plus RKS or KEY where stated, and writes only ST. It sets no flag".
-/

namespace Sys2Proof.Machine

/-- SUBBYTES: `ST <- SubBytes(ST)` (R180). -/
def execSubbytes (s : State) : Host.Outcome State Fault Refusal := .next (s.setSt (subBytes s.sbox s.st)).retire

/-- SHIFTROWS: `ST <- ShiftRows(ST)` (R181). -/
def execShiftrows (s : State) : Host.Outcome State Fault Refusal := .next (s.setSt (shiftRows s.st)).retire

/-- MIXCOLUMNS: `ST <- MixColumns(ST)` (R182). -/
def execMixcolumns (s : State) : Host.Outcome State Fault Refusal := .next (s.setSt (mixColumns s.st)).retire

/-- ADDRK: `require_rk(k); ST <- AddRoundKey(ST, RKS[k])` (R183). -/
def execAddrk (k : Byte) (s : State) : Host.Outcome State Fault Refusal := withRoundKey k s addRoundKey

/-- INVSUBBYTES: `ST <- InvSubBytes(ST)` (R184). -/
def execInvsubbytes (s : State) : Host.Outcome State Fault Refusal := .next (s.setSt (invSubBytes s.isbox s.st)).retire

/-- INVSHIFTROWS: `ST <- InvShiftRows(ST)` (R185). -/
def execInvshiftrows (s : State) : Host.Outcome State Fault Refusal := .next (s.setSt (invShiftRows s.st)).retire

/-- INVMIXCOLUMNS: `ST <- InvMixColumns(ST)` (R186). -/
def execInvmixcolumns (s : State) : Host.Outcome State Fault Refusal := .next (s.setSt (invMixColumns s.st)).retire

/-- ADDKEY: `ST <- AddRoundKey(ST, KEY)`; "KSV is not read and not changed" (R187). -/
def execAddkey (s : State) : Host.Outcome State Fault Refusal := .next (s.setSt (addRoundKey s.st s.key)).retire

end Sys2Proof.Machine
end

