-- ==== Sys2Proof/Machine/Dispatch.lean ====
section
/-!
DEFINITION. Sys2Proof/Machine/Dispatch.lean: one arm per command, each one call of its meaning.  A meaning is the whole
`complete` step of a command that has been decoded: its effect or its error, and the end of PEND (R23).
-/

namespace Sys2Proof.Machine

def exec (i : Instr) (s : State) : Host.Outcome State Fault Refusal :=
  match i with
  | .nop => Sys2Proof.Machine.execNop s
  | .clrerr => Sys2Proof.Machine.execClrerr s
  | .gfadd a b => Sys2Proof.Machine.execGfadd a b s
  | .gfmul a b => Sys2Proof.Machine.execGfmul a b s
  | .gfinv a => Sys2Proof.Machine.execGfinv a s
  | .gfpow a e => Sys2Proof.Machine.execGfpow a e s
  | .gfaff a => Sys2Proof.Machine.execGfaff a s
  | .sbox a => Sys2Proof.Machine.execSbox a s
  | .isbox a => Sys2Proof.Machine.execIsbox a s
  | .keyexp => Sys2Proof.Machine.execKeyexp s
  | .subbytes => Sys2Proof.Machine.execSubbytes s
  | .shiftrows => Sys2Proof.Machine.execShiftrows s
  | .mixcolumns => Sys2Proof.Machine.execMixcolumns s
  | .addrk k => Sys2Proof.Machine.execAddrk k s
  | .invsubbytes => Sys2Proof.Machine.execInvsubbytes s
  | .invshiftrows => Sys2Proof.Machine.execInvshiftrows s
  | .invmixcolumns => Sys2Proof.Machine.execInvmixcolumns s
  | .addkey => Sys2Proof.Machine.execAddkey s
  | .round k => Sys2Proof.Machine.execRound k s
  | .finalround k => Sys2Proof.Machine.execFinalround k s
  | .invround k => Sys2Proof.Machine.execInvround k s
  | .invfinalround k => Sys2Proof.Machine.execInvfinalround k s
  | .enc => Sys2Proof.Machine.execEnc s
  | .dec => Sys2Proof.Machine.execDec s

end Sys2Proof.Machine
end

