-- ==== Sys2Proof/Machine/Sequencer.lean ====
section
/-!
DEFINITION. Sys2Proof/Machine/Sequencer.lean: the sequencer's turn: the `complete` step when BUSY = 1 (R21, R23), and
nothing when the block is idle.
-/

namespace Sys2Proof.Machine

/-- The completion of a pending word: decode it, then run the command or take ILLEGAL_CMD (R23, R222). -/
def completeWord (w : Word) (s : State) : Host.Outcome State Fault Refusal :=
  match decode w with
  | .ok i => exec i s
  | .error _ => .next (s.raise .illegalCmd)

/-- The sequencer's turn.  With GEN = 1 its `complete` step is the end of generation; else, with a word in PEND, the
completion of that word (R23).  With BUSY = 0 no `complete` step is enabled (R21): the block is idle and "holds every
register while idle" (R239). -/
def sequencerTurn (s : State) : Host.Outcome State Fault Refusal :=
  if s.gen then .next s.endGeneration
  else
    match s.pend with
    | none => .next s
    | some w => completeWord w s

end Sys2Proof.Machine
end

