-- ==== Sys2Proof/Machine/Step.lean ====
section
/-!
DEFINITION. Sys2Proof/Machine/Step.lean: one step of a run (R21).
-/

namespace Sys2Proof.Machine

/-- One step: the first of the turns to come is taken.  When none is left the sequencer moves, and the turns that come
again follow: however the host goes on, "a `complete` step that stays enabled is eventually taken" (R21). -/
def step (s : State) : Host.Outcome State Fault Refusal :=
  match s.turns with
  | [] => sequencerTurn { s with turns := s.again }
  | .sequencer :: rest => sequencerTurn { s with turns := rest }
  | .read off size :: rest => .next (memRead off size { s with turns := rest })
  | .write off size v :: rest => .next (memWrite off size v { s with turns := rest })
  | .reset :: rest => .next (State.resetEvent { s with turns := rest })

/-- `s` with a command word where the next step takes its command: in PEND, with the sequencer to move.  The block
fetches nothing; a command comes to run when the host writes CMD (R63), and not before generation has ended (R34), so
a state in which generation is in progress is brought to its end first (log entry 7). -/
def State.withFetchWord (s : State) (nbits w : Nat) : State :=
  let ready := if s.gen then s.endGeneration else s
  { ready with pend := some (BitVec.ofNat 32 (w % 2 ^ nbits)), turns := .sequencer :: s.turns }

end Sys2Proof.Machine
end

