-- ==== Sys2Proof/Machine/Run.lean ====
section
/-!
DEFINITION. Sys2Proof/Machine/Run.lean: when the run of a host program has ended, and what is then observed (R250).

A run is the steps from a state; `turns` and `again` say what the host still does.
-/

namespace Sys2Proof.Machine

/-- The final registers of a run, as far as R250 speaks of them.  PEND and GEN are left out: at the end of a run both
say that the block is idle (R35). -/
structure Registers where
  /-- ST. -/
  st : Block
  /-- KEY. -/
  key : Block
  /-- RKS[0..ROUNDS] while KSV = 1, and nothing while KSV = 0 (log entry 19). -/
  schedule : List Block
  /-- KSV. -/
  ksv : Bool
  /-- ROUNDS. -/
  rounds : Nat
  /-- GFR. -/
  gfr : Byte
  /-- SBOX. -/
  sbox : Table
  /-- ISBOX. -/
  isbox : Table
  /-- SBRDY. -/
  sbrdy : Bool
  /-- ERR. -/
  err : Bool
  /-- ERRCODE. -/
  errcode : BitVec 4
  deriving DecidableEq, Repr

/-- The observation of a run: "the host's read values, in order, together with the final registers" (R250). -/
structure Observation where
  reads     : List Word
  registers : Registers
  deriving DecidableEq, Repr

/-- The registers that an observation holds.  "THE DEFINITION DOES NOT SAY ... what RKS holds above index ROUNDS" (R250),
and RKS is not to be observed while KSV = 0 (R39, U2): so RKS is cut to the valid schedule. -/
def State.registers (s : State) : Registers where
  st := s.st
  key := s.key
  schedule := if s.ksv then s.rks.take (s.rounds + 1) else []
  ksv := s.ksv
  rounds := s.rounds
  gfr := s.gfr
  sbox := s.sbox
  isbox := s.isbox
  sbrdy := s.sbrdy
  err := s.err
  errcode := s.errcode

/-- "the host has performed its last action" (R250): no read and no write is still to come, and no reset, since "after
a reset the run restarts from rule R241". -/
def State.hostDone (s : State) : Bool := (s.turns ++ s.again).all (· == .sequencer)

/-- "A run of a host program ends when the host has performed its last action and `BUSY = 0`" (R250). -/
def State.ended (s : State) : Bool := s.hostDone && !s.busy

/-- The observation of a run that has ended; none while it goes on (R250). -/
def State.observation (s : State) : Option Observation := if s.ended then some ⟨s.reads, s.registers⟩ else none

end Sys2Proof.Machine
end

