-- ==== Sys2Proof/Safety.lean ====
section
/-!
DEFINITION. Sys2Proof/Safety.lean: what the statements say about runs: which turn comes next, the invariant of the
block's states, and sequences of commands.
-/

namespace Sys2Proof.Machine

/-- The next step is the sequencer's: a `complete` step if BUSY = 1 (R21). -/
def State.sequencerNext (s : State) : Prop := s.turns = [] ∨ s.turns.head? = some .sequencer

/-- The state with its next turn taken off; when none is left, the turns that come again follow. -/
def State.popTurn (s : State) : State :=
  { s with turns := match s.turns with
      | [] => s.again
      | _ :: rest => rest }

/-- The effect of recording the error with number `c`, written out: ERR and ERRCODE change only if ERR = 0 (R33). -/
def State.withError (s : State) (c : BitVec 4) : State :=
  { s with err := true, errcode := if s.err then s.errcode else c }

/-- What holds of every state of the block.  It rules out the states that no run reaches. -/
structure State.Inv (s : State) : Prop where
  /-- SBRDY is 0 exactly while generation is in progress (R34, R143). -/
  sbrdy_gen : s.sbrdy = !s.gen
  /-- "`PEND` is always `none` while `GEN = 1`" (R23). -/
  gen_pend : s.gen = true → s.pend = none
  /-- The tables are in place once SBRDY = 1 (R142, R145, R150). -/
  tables : s.sbrdy = true → s.sbox = sboxTable ∧ s.isbox = isboxTable
  /-- ROUNDS is an integer 1..RMAX (R29). -/
  rounds_range : 1 ≤ s.rounds ∧ s.rounds ≤ Config.rmax
  /-- The round-key file holds RMAX+1 round keys (R11, R24). -/
  rks_length : s.rks.length = Config.rmax + 1
  /-- KSV is set only by commands, and none runs before the tables are ready (R28, R34). -/
  ksv_sbrdy : s.ksv = true → s.sbrdy = true
  /-- KSV means `RKS[0..ROUNDS] = expand(KEY, ROUNDS)` (R28). -/
  ksv_schedule : s.ksv = true → s.rks.take (s.rounds + 1) = expand sboxTable s.key s.rounds
  /-- ERRCODE is 0 when ERR = 0 (R32). -/
  no_error : s.err = false → s.errcode = 0
  /-- A recorded code is one of 1 to 6; "7-15 ... never produced" (R221). -/
  error_code : s.err = true → 1 ≤ s.errcode.toNat ∧ s.errcode.toNat ≤ 6

/-- Run a list of commands, each to its completion, stopping at the first fault or refusal. -/
def execAll : List Instr → State → Host.Outcome State Fault Refusal
  | [], s => .next s
  | i :: rest, s =>
    match exec i s with
    | .next t => execAll rest t
    | .fault f => .fault f
    | .refused r => .refused r

end Sys2Proof.Machine
end

