-- ==== Sys2Proof/Certificates/Slice0/Obligations.lean ====
section
/-!
DEFINITION. Sys2Proof/Certificates/Slice0/Obligations.lean: the statements for the provers.

Each docstring names the rule of spec/ that the statement comes from.  A statement about `exec` is about the whole
`complete` step of a decoded command; a statement about `step` is about one step of a run.  `s.withError c` is `s` with
the error record that R33 gives code `c`; `s.popTurn` is `s` with its next turn taken off.
-/

open Sys2Proof Sys2Proof.Machine

/-! ## Encoding -/

/-- Decoding the encoding of a command gives the command back, with every operand at every value. -/
def Obligations.DecodeInvertsEncode : Prop :=
  ∀ i : Instr, decode (encode i) = .ok i

/-- R73: fields a command does not use must be 0, and so must RSV, "so every legal command has exactly one
encoding". -/
def Obligations.LegalCommandHasOneEncoding : Prop :=
  (∀ w i, decode w = .ok i →
    fieldRsv w = 0 ∧ (i.opcode.usesA = false → fieldA w = 0) ∧ (i.opcode.usesB = false → fieldB w = 0)) ∧
  (∀ i, ∃! w, decode w = .ok i)

/-- R75: a word decodes exactly when `(w AND mask(op)) = match(op)` for a row of the opcode table, and then to the
command of that row with its used fields; the masks are as the rule says. -/
def Obligations.DecodeIsTheMaskTest : Prop :=
  (∀ w op, (∃ i, decode w = .ok i ∧ i.opcode = op) ↔ w &&& op.mask = op.pattern) ∧
  (∀ w i, decode w = .ok i → i = i.opcode.instr (fieldA w) (fieldB w)) ∧
  (∀ op : Opcode,
    op.mask = commandWord 0xff (if op.usesB then 0x00 else 0xff) (if op.usesA then 0x00 else 0xff) 0xff ∧
    op.pattern = op.code.zeroExtend 32)

/-- R80: the example words of the spec decode to the commands they stand for, and its illegal words are rejected. -/
def Obligations.SpecExampleWordsDecode : Prop :=
  decode 0x00000000 = .ok .nop ∧ decode 0x00000001 = .ok .clrerr ∧
  decode 0x00835709 = .ok (.gfmul 0x57 0x83) ∧ decode 0x00fe020b = .ok (.gfpow 0x02 254) ∧
  decode 0x0000530a = .ok (.gfinv 0x53) ∧ decode 0x00005310 = .ok (.sbox 0x53) ∧
  decode 0x00000a23 = .ok (.addrk 10) ∧ decode 0x00000128 = .ok (.round 1) ∧
  decode 0x00000a29 = .ok (.finalround 10) ∧ decode 0x00000030 = .ok .enc ∧ decode 0x00000031 = .ok .dec ∧
  decode 0x00000002 = .error .reservedOpcode ∧ decode 0x01000000 = .error .reservedField ∧
  decode 0x00000120 = .error .unusedA ∧ decode 0x00010023 = .error .unusedB

/-- R78: the assembler accepts a line exactly when it has the operands its mnemonic uses, each in 0..255; exactly the
lines it accepts have a command, and that command is encoded as `{8'h00, B, A, OP}`. -/
def Obligations.AssemblerChecksOperands : Prop :=
  (∀ l : AsmLine, l.wellFormed = true ↔ l.operands.length = l.op.arity ∧ ∀ n ∈ l.operands, n ≤ 255) ∧
  (∀ l : AsmLine, l.wellFormed = true ↔ ∃ i, l.toInstr = .ok i) ∧
  (∀ (op : Opcode) (ns : List Nat) (i : Instr), (AsmLine.mk op ns).toInstr = .ok i →
    encode i = commandWord 0 (BitVec.ofNat 8 (ns.getD 1 0)) (BitVec.ofNat 8 (ns.getD 0 0)) op.code)

/-! ## Steps -/

/-- When the sequencer moves and the word in PEND decodes, the step is `exec` of the decoded command, with the turn
taken off. -/
def Obligations.StepRunsDecodedCommand : Prop :=
  ∀ (s : State) (w : Word) (i : Instr), s.sequencerNext → s.gen = false → s.pend = some w → decode w = .ok i →
    step s = exec i s.popTurn

/-- R222: at completion, a pending word that decode rejects takes ILLEGAL_CMD (code 1): PEND is emptied, the error
recorded, and nothing else changes.  There are two cases: OP is reserved, or RSV or an unused field is nonzero. -/
def Obligations.IllegalWordIsAborted : Prop :=
  (∀ (s : State) (w : Word), s.sequencerNext → s.gen = false → s.pend = some w → (∀ i, decode w ≠ .ok i) →
    step s = .next { s.popTurn.withError 1 with pend := none }) ∧
  (∀ w : Word, (∀ i, decode w ≠ .ok i) ↔
    (∀ op : Opcode, op.code ≠ fieldOp w) ∨
    (∃ op : Opcode, op.code = fieldOp w ∧
      (fieldRsv w ≠ 0 ∨ (op.usesA = false ∧ fieldA w ≠ 0) ∨ (op.usesB = false ∧ fieldB w ≠ 0))))

/-- R76: a word with a reserved OP value completes with ILLEGAL_CMD and changes no other state. -/
def Obligations.ReservedOpcodesAreIllegal : Prop :=
  ∀ (s : State) (w : Word), s.sequencerNext → s.gen = false → s.pend = some w →
    (let op := (fieldOp w).toNat
     (0x02 ≤ op ∧ op ≤ 0x07) ∨ (0x0d ≤ op ∧ op ≤ 0x0f) ∨ (0x12 ≤ op ∧ op ≤ 0x17) ∨ (0x19 ≤ op ∧ op ≤ 0x1f) ∨
     (0x2c ≤ op ∧ op ≤ 0x2f) ∨ (0x32 ≤ op ∧ op ≤ 0xff)) →
    step s = .next { s.popTurn.withError 1 with pend := none }

/-- R151: the end of generation puts the generator's tables into SBOX and ISBOX, sets SBRDY and clears GEN; it records
no error, and BUSY is 0 after it. -/
def Obligations.GenerationInstallsGeneratedTables : Prop :=
  ∀ s : State, s.sequencerNext → s.gen = true → s.pend = none →
    ∃ t, step s = .next t ∧
      t = { s.popTurn with sbox := generateSbox, isbox := generateIsbox generateSbox, sbrdy := true, gen := false } ∧
      (∀ b : Byte, t.sbox.entry b = aff (gfInv b)) ∧ (∀ b : Byte, t.isbox.entry (t.sbox.entry b) = b) ∧
      t.busy = false

/-- 60_exceptions.md section 4: with BUSY = 0 the sequencer's turn changes no register. -/
def Obligations.IdleBlockHoldsEveryRegister : Prop :=
  ∀ s : State, s.sequencerNext → s.busy = false → step s = .next s.popTurn

/-- R240: a reset turn, at any state, gives every piece of state the value that R39 states, in one step; a pending
command and a generation in progress are dropped.  (R39 leaves RKS, SBOX and ISBOX unspecified, and so does this.  The
last two clauses, that the turns to come and those that come again stay, are the model's choice, log entry 1.) -/
def Obligations.ResetTurnGivesResetValues : Prop :=
  ∀ (s : State) (rest : List Turn), s.turns = .reset :: rest →
    ∃ t, step s = .next t ∧ t.st = Block.ofHex 0 ∧ t.key = Block.ofHex 0 ∧ t.ksv = false ∧ t.rounds = 10 ∧ t.gfr = 0 ∧
      t.sbrdy = false ∧ t.gen = true ∧ t.pend = none ∧ t.err = false ∧ t.errcode = 0 ∧ t.busy = true ∧ t.turns = rest ∧ t.again = s.again

/-- R241: after reset GEN = 1, BUSY = 1 and SBRDY = 0; the next `complete` step is the end of generation, and after it
the block is idle and ready, and STATUS reads 0x00000002. -/
def Obligations.BlockIsReadyAfterGeneration : Prop :=
  State.reset.gen = true ∧ State.reset.busy = true ∧ State.reset.sbrdy = false ∧
  ∃ t, step State.reset = .next t ∧ t.gen = false ∧ t.busy = false ∧ t.sbrdy = true ∧ t.ksv = false ∧ t.err = false ∧
    t.rounds = 10 ∧ t.st = Block.ofHex 0 ∧ t.key = Block.ofHex 0 ∧ t.gfr = 0 ∧ t.status = 0x00000002

/-! ## Invariants -/

/-- The reset state meets the invariant.  (That RKS has RMAX+1 entries there, of a value the model chose, is log
entry 5.) -/
def Obligations.ResetMeetsInvariant : Prop := State.reset.Inv

/-- Every step keeps the invariant, from every state that has it. -/
def Obligations.StepKeepsInvariant : Prop :=
  ∀ s t : State, s.Inv → step s = .next t → t.Inv

/-- Runs of any length never stop, from every state that meets the invariant, and they keep it. -/
def Obligations.RunsNeverStopUnderInvariant : Prop :=
  ∀ (n : Nat) (s : State), s.Inv → ∃ t : State, Host.Core.run Sys2Proof.core n s = .next t ∧ t.Inv

/-- R28: KSV is set only by the completion of KEYEXP, ENC or DEC, and cleared only by reset and by an accepted write to a
KEY word or to ROUNDS: one while BUSY = 0, and to ROUNDS one of a value 1..RMAX (R50, R225). -/
def Obligations.OnlyTheNamedEventsChangeKsv : Prop :=
  ∀ s t : State, step s = .next t → t.ksv ≠ s.ksv →
    (t.ksv = true ∧ s.sequencerNext ∧ s.gen = false ∧
      ∃ w i, s.pend = some w ∧ decode w = .ok i ∧ (i = .keyexp ∨ i = .enc ∨ i = .dec)) ∨
    (t.ksv = false ∧
      ((∃ rest, s.turns = .reset :: rest) ∨
       (∃ off v rest, s.turns = .write off 4 v :: rest ∧ s.busy = false ∧
         off ∈ [0x08#6, 0x20#6, 0x24#6, 0x28#6, 0x2c#6] ∧
         (off = 0x08#6 → 1 ≤ v.toNat ∧ v.toNat ≤ Config.rmax))))

/-- R31, R143: SBOX and ISBOX change only at the end of a generation and at reset. -/
def Obligations.TablesChangeOnlyByGenerationOrReset : Prop :=
  ∀ s t : State, step s = .next t → (t.sbox ≠ s.sbox ∨ t.isbox ≠ s.isbox) →
    (s.sequencerNext ∧ s.gen = true) ∨ ∃ rest, s.turns = .reset :: rest

/-- R33: while ERR = 1 the record keeps the first error's code, except at reset and at a successful CLRERR. -/
def Obligations.FirstErrorIsKept : Prop :=
  ∀ s t : State, step s = .next t → s.err = true →
    (t.err = true ∧ t.errcode = s.errcode) ∨
    (t.err = false ∧ t.errcode = 0 ∧
      ((∃ rest, s.turns = .reset :: rest) ∨ (s.sequencerNext ∧ s.gen = false ∧ s.pend = some 0x00000001)))

/-- R250: "Every busy interval ends": a sequencer's turn ends one, and such a turn comes after at most the turns now
listed.  A run whose host has a last action ends, within one step more than the turns now listed; an ended run has
BUSY = 0 and no host action and no reset to come, and every later step leaves its observation as it is.  A host that goes
on forever makes a run that does not end.  (How a host that goes on is written, and that the sequencer moves once in each
round of it, is the model's form of R21's weak fairness, log entry 1; what the observation holds of RKS is log
entry 19.) -/
def Obligations.BusyIntervalsAndRunsEnd : Prop :=
  (∀ s : State, s.Inv → s.sequencerNext → s.busy = true → ∃ t, step s = .next t ∧ t.busy = false) ∧
  (∀ s : State, s.Inv → s.busy = true →
    ∃ (n : Nat) (t : State), n ≤ s.turns.length + 1 ∧ Host.Core.run Sys2Proof.core n s = .next t ∧ t.busy = false) ∧
  (∀ s : State, s.Inv → s.again = [] →
    ∃ (t : State) (o : Observation), Host.Core.run Sys2Proof.core (s.turns.length + 1) s = .next t ∧
      t.observation = some o ∧ o.reads = t.reads ∧ o.registers = t.registers) ∧
  (∀ (s : State) (o : Observation), s.observation = some o →
    s.busy = false ∧ (∀ turn ∈ s.turns ++ s.again, turn = .sequencer) ∧
    ∃ t, step s = .next t ∧ t.observation = some o) ∧
  (∀ (n : Nat) (s t : State), (∃ turn ∈ s.again, turn ≠ .sequencer) → Host.Core.run Sys2Proof.core n s = .next t →
    t.observation = none)

/-- R27, R39 (RKS "unobservable while KSV = 0"): two states that differ only in RKS, and agree there on the entries
0..ROUNDS if KSV = 1, step to two states that differ in the same way.  So no read, no error and no register other than
RKS ever shows what RKS held at reset or above index ROUNDS.  (A read of ST or GFR while busy draws the same word in both
runs, because they draw at the same count: the equal draw is the model's form of a free value, log entry 3, and no rule
of the spec.  What RKS holds at reset is the model's choice, log entry 5.) -/
def Obligations.StaleRoundKeysAreUnobservable : Prop :=
  ∀ (s : State) (r : List Block), s.Inv → r.length = s.rks.length →
    (s.ksv = true → r.take (s.rounds + 1) = s.rks.take (s.rounds + 1)) →
    ∃ t r', step s = .next t ∧ step { s with rks := r } = .next { t with rks := r' } ∧ r'.length = t.rks.length ∧
      (t.ksv = true → r'.take (t.rounds + 1) = t.rks.take (t.rounds + 1))

/-- R39 (SBOX and ISBOX "unobservable while SBRDY = 0"): two states that differ only in the tables, and agree there if
SBRDY = 1, step to two states that differ in the same way.  (While SBRDY = 0 the block is busy, and every read of ST or
GFR draws the same word in both runs, because they draw at the same count: the equal draw is the model's form of a free
value, log entry 3, and no rule of the spec.  What the tables hold at reset is the model's choice, log entry 5.) -/
def Obligations.TablesBeforeGenerationAreUnobservable : Prop :=
  ∀ (s : State) (a b : Table), s.Inv → (s.sbrdy = true → a = s.sbox ∧ b = s.isbox) →
    ∃ t a' b', step s = .next t ∧
      step { s with sbox := a, isbox := b } = .next { t with sbox := a', isbox := b' } ∧
      (t.sbrdy = true → a' = t.sbox ∧ b' = t.isbox)

/-! ## Frames over all commands -/

/-- R26, R29, R31, R54 and the templates of the command files: what each command leaves unchanged when it gives a next
state.  No command writes KEY, ROUNDS, the tables, SBRDY or GEN; only the seven commands of R30 write GFR; only the
transform, round, ENC and DEC commands write ST; only KEYEXP, ENC and DEC write RKS and KSV; only CLRERR, and the five
round-key commands when they take an error, touch the error record; and every command empties PEND. -/
def Obligations.CommandsWriteOnlyTheirRegisters : Prop :=
  ∀ (i : Instr) (s t : State), exec i s = .next t →
    t.key = s.key ∧ t.rounds = s.rounds ∧ t.sbox = s.sbox ∧ t.isbox = s.isbox ∧ t.sbrdy = s.sbrdy ∧ t.gen = s.gen ∧
    t.turns = s.turns ∧ t.again = s.again ∧ t.reads = s.reads ∧ t.draws = s.draws ∧ t.pend = none ∧
    (i.opcode ∉ [.gfadd, .gfmul, .gfinv, .gfpow, .gfaff, .sbox, .isbox] → t.gfr = s.gfr) ∧
    (i.opcode ∈ [.nop, .clrerr, .gfadd, .gfmul, .gfinv, .gfpow, .gfaff, .sbox, .isbox, .keyexp] → t.st = s.st) ∧
    (i.opcode ∉ [.keyexp, .enc, .dec] → t.rks = s.rks ∧ t.ksv = s.ksv) ∧
    (∀ k : Nat, s.rounds < k → t.rks[k]? = s.rks[k]?) ∧
    (i.opcode ∉ [.clrerr, .addrk, .round, .finalround, .invround, .invfinalround] →
      t.err = s.err ∧ t.errcode = s.errcode)

/-! ## The host's accesses -/

/-- R46: an access that is not 4 bytes wide at an offset divisible by 4 from 0x00 to 0x2C is a bus error, busy or not:
a read returns 0, a write is dropped, and BUS (code 6) is recorded. -/
def Obligations.BusErrorsAreRecordedAndDropped : Prop :=
  ∀ (s : State) (off : Offset) (size : Nat) (v : Word) (rest : List Turn),
    (size ≠ 4 ∨ off.toNat % 4 ≠ 0 ∨ 0x2c < off.toNat) →
    (s.turns = .read off size :: rest →
      step s = .next { s.popTurn.withError 6 with reads := s.reads ++ [0] }) ∧
    (s.turns = .write off size v :: rest → step s = .next (s.popTurn.withError 6))

/-- R48, R53: what a legal read returns at each offset, with no other effect than that the host has read it.  (The
reads of GFR and ST while busy are the next statement.) -/
def Obligations.LegalReadsReturnTheRegister : Prop :=
  ∀ (s : State) (off : Offset) (rest : List Turn), s.turns = .read off 4 :: rest →
    (∀ p ∈ [(0x00#6, 0#32),
        (0x04#6, 0#24 ++ s.errcode ++ BitVec.ofBool s.err ++ BitVec.ofBool s.ksv ++ BitVec.ofBool s.sbrdy
          ++ BitVec.ofBool s.busy),
        (0x08#6, BitVec.ofNat 32 s.rounds),
        (0x20#6, s.key.byte 3 ++ s.key.byte 2 ++ s.key.byte 1 ++ s.key.byte 0),
        (0x24#6, s.key.byte 7 ++ s.key.byte 6 ++ s.key.byte 5 ++ s.key.byte 4),
        (0x28#6, s.key.byte 11 ++ s.key.byte 10 ++ s.key.byte 9 ++ s.key.byte 8),
        (0x2c#6, s.key.byte 15 ++ s.key.byte 14 ++ s.key.byte 13 ++ s.key.byte 12)],
      off = p.1 → step s = .next { s.popTurn with reads := s.reads ++ [p.2] }) ∧
    (s.busy = false → ∀ p ∈ [(0x0c#6, s.gfr.zeroExtend 32),
        (0x10#6, s.st.byte 3 ++ s.st.byte 2 ++ s.st.byte 1 ++ s.st.byte 0),
        (0x14#6, s.st.byte 7 ++ s.st.byte 6 ++ s.st.byte 5 ++ s.st.byte 4),
        (0x18#6, s.st.byte 11 ++ s.st.byte 10 ++ s.st.byte 9 ++ s.st.byte 8),
        (0x1c#6, s.st.byte 15 ++ s.st.byte 14 ++ s.st.byte 13 ++ s.st.byte 12)],
      off = p.1 → step s = .next { s.popTurn with reads := s.reads ++ [p.2] })

/-- R32: where each field of STATUS sits in the word. -/
def Obligations.StatusFieldsSitAtTheirBits : Prop :=
  ∀ s : State, s.status.getLsbD 0 = s.busy ∧ s.status.getLsbD 1 = s.sbrdy ∧ s.status.getLsbD 2 = s.ksv ∧
    s.status.getLsbD 3 = s.err ∧ s.status.extractLsb' 4 4 = s.errcode ∧ s.status.extractLsb' 8 24 = 0

/-- R55: a read of ST0..ST3 or GFR while BUSY = 1 returns an unspecified word and changes no register.  (That the word
is the constant `Config.busyRead` at the count of draws is the model's form of a free value, log entry 3.) -/
def Obligations.BusyReadsReturnAFreeValue : Prop :=
  ∀ (s : State) (off : Offset) (rest : List Turn), s.turns = .read off 4 :: rest → s.busy = true →
    off ∈ [0x0c#6, 0x10#6, 0x14#6, 0x18#6, 0x1c#6] →
    step s = .next { s.popTurn with reads := s.reads ++ [Config.busyRead s.draws], draws := s.draws + 1 }

/-- R56, R226: a write to CMD, ROUNDS, ST or KEY while BUSY = 1 is dropped, records BUSY_WRITE (code 5), and changes
nothing else; "In particular it does not affect the pending command". -/
def Obligations.BusyWritesAreDropped : Prop :=
  ∀ (s : State) (off : Offset) (v : Word) (rest : List Turn), s.turns = .write off 4 v :: rest → s.busy = true →
    off ∈ [0x00#6, 0x08#6, 0x10#6, 0x14#6, 0x18#6, 0x1c#6, 0x20#6, 0x24#6, 0x28#6, 0x2c#6] →
    step s = .next (s.popTurn.withError 5)

/-- R22, R58: a write of CMD while idle is accepted whatever the word, sets PEND and so BUSY, and changes nothing
else. -/
def Obligations.CommandWriteSetsPend : Prop :=
  ∀ (s : State) (w : Word) (rest : List Turn), s.turns = .write 0x00#6 4 w :: rest → s.busy = false →
    ∃ t, step s = .next t ∧ t = { s.popTurn with pend := some w } ∧ t.busy = true

/-- R50, R225: a write of ROUNDS while idle takes 1..RMAX and clears KSV; any other word records BAD_ROUNDS (code 4) and
changes nothing else. -/
def Obligations.RoundsWriteIsChecked : Prop :=
  ∀ (s : State) (v : Word) (rest : List Turn), s.turns = .write 0x08#6 4 v :: rest → s.busy = false →
    (1 ≤ v.toNat → v.toNat ≤ Config.rmax → step s = .next { s.popTurn with rounds := v.toNat, ksv := false }) ∧
    (v.toNat = 0 ∨ Config.rmax < v.toNat → step s = .next (s.popTurn.withError 4))

/-- R51: a write of ST_k while idle sets bytes 4k..4k+3 of ST to the bytes of the word, low byte first, and changes
nothing else. -/
def Obligations.StateWordWriteSetsFourBytes : Prop :=
  ∀ (s : State) (k : Fin 4) (v : Word) (rest : List Turn),
    s.turns = .write (BitVec.ofNat 6 (0x10 + 4 * k.val)) 4 v :: rest → s.busy = false →
    ∃ t, step s = .next t ∧ t = { s.popTurn with st := t.st } ∧
      (∀ (i : Fin 16) (j : Fin 4), i.val = 4 * k.val + j.val → t.st.byte i = v.extractLsb' (8 * j.val) 8) ∧
      (∀ i : Fin 16, i.val / 4 ≠ k.val → t.st.byte i = s.st.byte i)

/-- R52: a write of KEY_k while idle sets bytes 4k..4k+3 of KEY, clears KSV, and changes nothing else. -/
def Obligations.KeyWordWriteSetsFourBytesAndClearsKsv : Prop :=
  ∀ (s : State) (k : Fin 4) (v : Word) (rest : List Turn),
    s.turns = .write (BitVec.ofNat 6 (0x20 + 4 * k.val)) 4 v :: rest → s.busy = false →
    ∃ t, step s = .next t ∧ t = { s.popTurn with key := t.key, ksv := false } ∧
      (∀ (i : Fin 16) (j : Fin 4), i.val = 4 * k.val + j.val → t.key.byte i = v.extractLsb' (8 * j.val) 8) ∧
      (∀ i : Fin 16, i.val / 4 ≠ k.val → t.key.byte i = s.key.byte i)

/-- R54: a write to STATUS or GFR is ignored and records no error, busy or not. -/
def Obligations.ReadOnlyRegisterWritesAreIgnored : Prop :=
  ∀ (s : State) (off : Offset) (v : Word) (rest : List Turn), s.turns = .write off 4 v :: rest →
    (off = 0x04 ∨ off = 0x0c) → step s = .next s.popTurn

/-- 20_memory.md sections 2 and 4: what the host writes to a word of ST or KEY while idle is what it reads back. -/
def Obligations.WrittenWordsReadBack : Prop :=
  ∀ (s : State) (off : Offset) (v : Word) (rest : List Turn),
    s.turns = .write off 4 v :: .read off 4 :: rest → s.busy = false →
    off ∈ [0x10#6, 0x14#6, 0x18#6, 0x1c#6, 0x20#6, 0x24#6, 0x28#6, 0x2c#6] →
    ∃ t u, step s = .next t ∧ step t = .next u ∧ u.reads = s.reads ++ [v]

/-- R44: the worked example of the byte order. -/
def Obligations.PackingExample : Prop :=
  let key := Block.ofHex 0x2b7e151628aed2a6abf7158809cf4f3c
  let text := Block.ofHex 0x746865626c6f636b627265616b657273
  key.word 0 = 0x16157e2b ∧ key.word 1 = 0xa6d2ae28 ∧ key.word 2 = 0x8815f7ab ∧ key.word 3 = 0x3c4fcf09 ∧
  text.word 0 = 0x62656874 ∧ text.word 1 = 0x6b636f6c ∧ text.word 2 = 0x61657262 ∧ text.word 3 = 0x7372656b

/-! ## Field arithmetic -/

/-- R110 to R114: the five field commands complete in every state, write their result to GFR, and change nothing else;
each has the one encoding the rule gives it, and so takes no error but ILLEGAL_CMD; with the rules' corner cases and
examples. -/
def Obligations.FieldCommandsWriteGfr : Prop :=
  (∀ (a b : Byte) (s : State),
    exec (.gfadd a b) s = .next { s with gfr := a ^^^ b, pend := none } ∧
    exec (.gfmul a b) s = .next { s with gfr := gfMul a b, pend := none } ∧
    exec (.gfinv a) s = .next { s with gfr := gfInv a, pend := none } ∧
    exec (.gfpow a b) s = .next { s with gfr := gfPow a b.toNat, pend := none } ∧
    exec (.gfaff a) s = .next { s with gfr := aff a, pend := none }) ∧
  (∀ (a b : Byte) (w : Word),
    (decode w = .ok (.gfadd a b) ↔ w = commandWord 0 b a 0x08) ∧
    (decode w = .ok (.gfmul a b) ↔ w = commandWord 0 b a 0x09) ∧
    (decode w = .ok (.gfinv a) ↔ w = commandWord 0 0 a 0x0a) ∧
    (decode w = .ok (.gfpow a b) ↔ w = commandWord 0 b a 0x0b) ∧
    (decode w = .ok (.gfaff a) ↔ w = commandWord 0 0 a 0x0c)) ∧
  (∀ a : Byte, a ^^^ a = 0 ∧ a ^^^ 0 = a ∧ gfMul a 0 = 0 ∧ gfMul 0 a = 0 ∧ gfMul a 1 = a ∧ gfMul 1 a = a ∧
    gfPow a 0 = 1 ∧ gfPow a 255 = 1) ∧
  (∀ e : Nat, 1 ≤ e → e ≤ 254 → gfPow 0 e = 0) ∧
  (0x57#8 ^^^ 0x83#8 = 0xd4#8 ∧ gfMul 0x57 0x83 = 0xc1 ∧ gfMul 0x80 0x02 = 0x1b ∧ gfMul 0xff 0xff = 0x13 ∧
    gfInv 0x00 = 0x00 ∧ gfInv 0x01 = 0x01 ∧ gfInv 0x02 = 0x8d ∧ gfInv 0xff = 0x1c ∧ gfInv 0x53 = 0xca ∧
    gfPow 0x02 8 = 0x1b ∧ gfPow 0x02 9 = 0x36 ∧ gfPow 0x02 254 = 0x8d ∧
    aff 0x00 = 0x63 ∧ aff 0x01 = 0x7c ∧ aff 0xff = 0x9c ∧ aff 0xca = 0xed ∧ sboxTable.entry 0x53 = 0xed) ∧
  (decode 0x00835708 = .ok (.gfadd 0x57 0x83) ∧ decode 0x00835709 = .ok (.gfmul 0x57 0x83) ∧
    decode 0x0000530a = .ok (.gfinv 0x53) ∧ decode 0x00fe020b = .ok (.gfpow 0x02 254) ∧
    decode 0x0000ca0c = .ok (.gfaff 0xca))

/-- 41_gf_arith.md section 1: with a byte read as a polynomial over GF(2), bit i the coefficient of x^i, `gf_mul` is the
remainder of the product modulo x^8 + x^4 + x^3 + x + 1, and `gf_add` is the sum. -/
def Obligations.GfMulIsPolynomialRemainder : Prop :=
  let poly : Byte → Polynomial (ZMod 2) := fun b =>
    ∑ i ∈ Finset.range 8, if b.getLsbD i then Polynomial.X ^ i else 0
  ∀ a b : Byte,
    poly (gfMul a b) = (poly a * poly b) %ₘ
      (Polynomial.X ^ 8 + Polynomial.X ^ 4 + Polynomial.X ^ 3 + Polynomial.X + 1) ∧
    poly (gfAdd a b) = poly a + poly b

/-- R105: the arithmetic laws, for all bytes. -/
def Obligations.GfArithmeticLaws : Prop :=
  ∀ a b c : Byte,
    gfAdd a a = 0 ∧ gfAdd a 0 = a ∧ gfMul a 0x01 = a ∧ gfMul a 0x00 = 0x00 ∧
    gfMul a b = gfMul b a ∧ gfMul (gfMul a b) c = gfMul a (gfMul b c) ∧
    gfMul a (gfAdd b c) = gfAdd (gfMul a b) (gfMul a c) ∧
    (a ≠ 0 → gfMul a (gfInv a) = 0x01) ∧ gfInv (gfInv a) = a ∧
    gfMul a 0x02 = (a <<< 1) ^^^ (if a.getLsbD 7 then 0x1b else 0x00)

/-- R103: `gf_pow(base, e) = base^(e mod 255)`, the product of `e mod 255` factors, with the rule's corner cases at base
0 and its law for nonzero bases. -/
def Obligations.GfPowIsReducedPower : Prop :=
  (∀ (base : Byte) (e : Nat), gfPow base e = (gfMul base)^[e % 255] 0x01) ∧
  (∀ base : Byte, gfPow base 0 = 0x01) ∧ gfPow 0 0 = 0x01 ∧ gfPow 0 255 = 0x01 ∧
  (∀ e : Nat, 1 ≤ e % 255 → gfPow 0 e = 0x00) ∧
  (∀ base : Byte, base ≠ 0 → (gfMul base)^[255] 0x01 = 0x01)

/-- R104: `gf_inv(a) = gf_pow(a, 254)` is the unique x with `gf_mul(a, x) = 1` for a nonzero, and `gf_inv(0) = 0`. -/
def Obligations.GfInvIsTheUniqueInverse : Prop :=
  (∀ a : Byte, gfInv a = gfPow a 254) ∧
  (∀ a x : Byte, a ≠ 0 → (gfMul a x = 0x01 ↔ x = gfInv a)) ∧ gfInv 0 = 0

/-- R107: the entries of the affine matrix, by formula and by rows; and the closed form of the affine step with rotations
that R108 gives for these entries. -/
def Obligations.AffineMatrixAndClosedForm : Prop :=
  (∀ i j : Fin 8, (affMatrix.getD i.val []).getD j.val 0 =
    if ((j.val : Int) - i.val) % 8 ∈ [0, 4, 5, 6, 7] then 0x01 else 0x00) ∧
  affMatrix = [[1, 0, 0, 0, 1, 1, 1, 1], [1, 1, 0, 0, 0, 1, 1, 1], [1, 1, 1, 0, 0, 0, 1, 1], [1, 1, 1, 1, 0, 0, 0, 1],
    [1, 1, 1, 1, 1, 0, 0, 0], [0, 1, 1, 1, 1, 1, 0, 0], [0, 0, 1, 1, 1, 1, 1, 0], [0, 0, 0, 1, 1, 1, 1, 1]] ∧
  (∀ x : Byte, aff x = x ^^^ x.rotateLeft 1 ^^^ x.rotateLeft 2 ^^^ x.rotateLeft 3 ^^^ x.rotateLeft 4 ^^^ 0x63)

/-! ## Tables -/

/-- R142: the table invariants, whenever SBRDY = 1. -/
def Obligations.TablesAreInversePermutations : Prop :=
  ∀ s : State, s.Inv → s.sbrdy = true →
    (∀ b : Byte, s.isbox.entry (s.sbox.entry b) = b) ∧ (∀ b : Byte, s.sbox.entry (s.isbox.entry b) = b) ∧
    Function.Bijective s.sbox.entry ∧ s.sbox.entry 0 = 0x63 ∧ (∀ b : Byte, s.sbox.entry b ≠ b) ∧
    s.isbox.entry 0x00 = 0x52

/-- R152, R153: the table reads complete in every state, write one entry to GFR, and change nothing else; with their
encodings, corner cases and examples. -/
def Obligations.TableReadCommandsWriteGfr : Prop :=
  (∀ (a : Byte) (s : State),
    exec (.sbox a) s = .next { s with gfr := s.sbox.entry a, pend := none } ∧
    exec (.isbox a) s = .next { s with gfr := s.isbox.entry a, pend := none }) ∧
  (∀ (a : Byte) (w : Word),
    (decode w = .ok (.sbox a) ↔ w = commandWord 0 0 a 0x10) ∧ (decode w = .ok (.isbox a) ↔ w = commandWord 0 0 a 0x11)) ∧
  (∀ (s : State), s.Inv → s.sbrdy = true →
    (∀ p ∈ [(0x00#8, 0x63#8), (0xff, 0x16), (0x53, 0xed)], ∃ t, exec (.sbox p.1) s = .next t ∧ t.gfr = p.2) ∧
    (∀ p ∈ [(0x63#8, 0x00#8), (0x00, 0x52), (0xed, 0x53)], ∃ t, exec (.isbox p.1) s = .next t ∧ t.gfr = p.2)) ∧
  decode 0x00005310 = .ok (.sbox 0x53) ∧ decode 0x0000ed11 = .ok (.isbox 0xed)

/-- 42_sbox.md section 1: whenever SBRDY = 1, the SBOX command computes the affine step of the field inverse. -/
def Obligations.SboxCommandComputesAffineOfInverse : Prop :=
  ∀ (s : State) (a : Byte), s.Inv → s.sbrdy = true →
    exec (.sbox a) s = .next { s with gfr := aff (gfInv a), pend := none }

/-! ## Key schedule -/

/-- R164: KEYEXP completes in every state, writes `expand(KEY, ROUNDS)` to RKS[0..ROUNDS], sets KSV, and changes nothing
else; a second KEYEXP leaves RKS as it is; with its encoding, corner cases and example. -/
def Obligations.KeyexpLoadsTheSchedule : Prop :=
  (∀ s : State, ∃ t, exec .keyexp s = .next t ∧ t = { s with rks := t.rks, ksv := true, pend := none } ∧
    (∀ k : Nat, k ≤ s.rounds → t.rks[k]? = (expand s.sbox s.key s.rounds)[k]?) ∧
    (∀ k : Nat, s.rounds < k → t.rks[k]? = s.rks[k]?) ∧
    ∃ u, exec .keyexp t = .next u ∧ u.rks = t.rks) ∧
  (∀ w : Word, decode w = .ok .keyexp ↔ w = commandWord 0 0 0 0x18) ∧
  (∀ s : State, s.Inv → s.sbrdy = true → s.key = Block.ofHex 0 →
    ∃ t, exec .keyexp s = .next t ∧ t.rks[1]? = some (Block.ofHex 0x62636363626363636263636362636363)) ∧
  (∀ s : State, s.Inv → s.sbrdy = true → s.key = Block.ofHex 0x2b7e151628aed2a6abf7158809cf4f3c → s.rounds = 10 →
    ∃ t, exec .keyexp s = .next t ∧ t.rks[1]? = some (Block.ofHex 0xa0fafe1788542cb123a339392a6c7605) ∧
      t.rks[10]? = some (Block.ofHex 0xd014f9a8c9ee2589e13f0cc8b6630ca6))

/-- 43_key_schedule.md section 1: RotateLeft1 and SubWord on the four bytes of a word; Rcon, with the first bytes the spec
lists for r = 1..14; and the source's round-1 vector. -/
def Obligations.ScheduleWordFunctions : Prop :=
  (∀ (sbox : Table) (w0 w1 w2 w3 : Byte), rotateLeft1 ⟨w0, w1, w2, w3⟩ = ⟨w1, w2, w3, w0⟩ ∧
    subWord sbox ⟨w0, w1, w2, w3⟩ = ⟨sbox.entry w0, sbox.entry w1, sbox.entry w2, sbox.entry w3⟩) ∧
  (∀ r : Nat, 1 ≤ r → r ≤ 255 → rcon r = ⟨(gfMul 0x02)^[r - 1] 0x01, 0, 0, 0⟩) ∧
  (List.range 14).map (fun j => (rcon (j + 1)).b0) =
    [0x01, 0x02, 0x04, 0x08, 0x10, 0x20, 0x40, 0x80, 0x1b, 0x36, 0x6c, 0xd8, 0xab, 0x4d] ∧
  roundKey sboxTable (Block.ofHex 0x2b7e151628aed2a6abf7158809cf4f3c) 1 = Block.ofHex 0xa0fafe1788542cb123a339392a6c7605

/-- R163: the round keys of `expand(key, R)`: R+1 of them, the first the key, each next one from the one before it by
the rule's columns. -/
def Obligations.ExpandFollowsTheRecurrence : Prop :=
  ∀ (sbox : Table) (key : Block) (rounds : Nat), (expand sbox key rounds).length = rounds + 1 ∧
    (expand sbox key rounds)[0]? = some key ∧
    (∀ r : Nat, 1 ≤ r → r ≤ rounds → ∃ prev rk : Block,
      (expand sbox key rounds)[r - 1]? = some prev ∧ (expand sbox key rounds)[r]? = some rk ∧
      rk.col 0 = ((subWord sbox (rotateLeft1 (prev.col 3))).xor (rcon r)).xor (prev.col 0) ∧
      rk.col 1 = (rk.col 0).xor (prev.col 1) ∧ rk.col 2 = (rk.col 1).xor (prev.col 2) ∧
      rk.col 3 = (rk.col 2).xor (prev.col 3))

/-- R165: the inversion law: each round key is determined by the next one, so the last one alone determines the key. -/
def Obligations.KeyScheduleIsInvertible : Prop :=
  (∀ (sbox : Table) (key : Block) (r : Nat), 1 ≤ r →
    let rk := roundKey sbox key r
    let prev := roundKey sbox key (r - 1)
    prev.col 3 = (rk.col 2).xor (rk.col 3) ∧ prev.col 2 = (rk.col 1).xor (rk.col 2) ∧
    prev.col 1 = (rk.col 0).xor (rk.col 1) ∧
    prev.col 0 = ((rk.col 0).xor (subWord sbox (rotateLeft1 (prev.col 3)))).xor (rcon r)) ∧
  (∀ (sbox : Table) (key key' : Block) (rounds : Nat),
    (expand sbox key rounds)[rounds]? = (expand sbox key' rounds)[rounds]? → key = key')

/-! ## Transforms -/

/-- R180, R181, R184, R185: the byte substitutions and row shifts complete in every state, write only ST, byte by byte
as R170 to R173 say; with their encodings, corner cases and examples. -/
def Obligations.SubstitutionAndShiftCommandsWriteSt : Prop :=
  (∀ s : State,
    (∃ v, exec .subbytes s = .next { s with st := v, pend := none } ∧
      ∀ i : Fin 16, v.byte i = s.sbox.entry (s.st.byte i)) ∧
    (∃ v, exec .invsubbytes s = .next { s with st := v, pend := none } ∧
      ∀ i : Fin 16, v.byte i = s.isbox.entry (s.st.byte i)) ∧
    (∃ v, exec .shiftrows s = .next { s with st := v, pend := none } ∧
      ∀ (r c : Nat) (i j : Fin 16), r ≤ 3 → c ≤ 3 → i.val = r + 4 * c → j.val = r + 4 * ((c + r) % 4) →
        v.byte i = s.st.byte j) ∧
    (∃ v, exec .invshiftrows s = .next { s with st := v, pend := none } ∧
      ∀ (r c : Nat) (i j : Fin 16), r ≤ 3 → c ≤ 3 → i.val = r + 4 * c → j.val = r + 4 * ((c + 4 - r) % 4) →
        v.byte i = s.st.byte j)) ∧
  (∀ w : Word,
    (decode w = .ok .subbytes ↔ w = commandWord 0 0 0 0x20) ∧ (decode w = .ok .shiftrows ↔ w = commandWord 0 0 0 0x21) ∧
    (decode w = .ok .invsubbytes ↔ w = commandWord 0 0 0 0x24) ∧
    (decode w = .ok .invshiftrows ↔ w = commandWord 0 0 0 0x25)) ∧
  (subBytes sboxTable (Block.ofHex 0) = Block.ofHex 0x63636363636363636363636363636363 ∧
    subBytes sboxTable (Block.ofHex 0xffffffffffffffffffffffffffffffff) = Block.ofHex 0x16161616161616161616161616161616 ∧
    subBytes sboxTable (Block.ofHex 0x000102030405060708090a0b0c0d0e0f) = Block.ofHex 0x637c777bf26b6fc53001672bfed7ab76 ∧
    invSubBytes isboxTable (Block.ofHex 0x63636363636363636363636363636363) = Block.ofHex 0 ∧
    invSubBytes isboxTable (Block.ofHex 0) = Block.ofHex 0x52525252525252525252525252525252 ∧
    invSubBytes isboxTable (Block.ofHex 0x000102030405060708090a0b0c0d0e0f)
      = Block.ofHex 0x52096ad53036a538bf40a39e81f3d7fb ∧
    shiftRows (Block.ofHex 0x000102030405060708090a0b0c0d0e0f) = Block.ofHex 0x00050a0f04090e03080d02070c01060b ∧
    invShiftRows (Block.ofHex 0x000102030405060708090a0b0c0d0e0f) = Block.ofHex 0x000d0a0704010e0b0805020f0c090603) ∧
  (∀ v : Block, shiftRows (shiftRows (shiftRows (shiftRows v))) = v ∧ invShiftRows (shiftRows v) = v) ∧
  (∀ v : Block, v.c1 = v.c0 → v.c2 = v.c0 → v.c3 = v.c0 → shiftRows v = v)

/-- R182, R186, R187: MIXCOLUMNS, INVMIXCOLUMNS and ADDKEY complete in every state, write only ST, by the products of
R174 and R175 in every column and by XOR with KEY; with their encodings, corner cases and examples. -/
def Obligations.MixAndKeyCommandsWriteSt : Prop :=
  (∀ s : State,
    (∃ v, exec .mixcolumns s = .next { s with st := v, pend := none } ∧
      ∀ c : Fin 4, let x := s.st.col c; v.col c =
        ⟨gfMul 2 x.b0 ^^^ gfMul 3 x.b1 ^^^ x.b2 ^^^ x.b3, x.b0 ^^^ gfMul 2 x.b1 ^^^ gfMul 3 x.b2 ^^^ x.b3,
         x.b0 ^^^ x.b1 ^^^ gfMul 2 x.b2 ^^^ gfMul 3 x.b3, gfMul 3 x.b0 ^^^ x.b1 ^^^ x.b2 ^^^ gfMul 2 x.b3⟩) ∧
    (∃ v, exec .invmixcolumns s = .next { s with st := v, pend := none } ∧
      ∀ c : Fin 4, let x := s.st.col c; (v.col c).toList = matVec
        [[0x0e, 0x0b, 0x0d, 0x09], [0x09, 0x0e, 0x0b, 0x0d], [0x0d, 0x09, 0x0e, 0x0b], [0x0b, 0x0d, 0x09, 0x0e]] x.toList) ∧
    (∃ v, exec .addkey s = .next { s with st := v, pend := none } ∧
      ∀ i : Fin 16, v.byte i = s.st.byte i ^^^ s.key.byte i)) ∧
  (∀ w : Word,
    (decode w = .ok .mixcolumns ↔ w = commandWord 0 0 0 0x22) ∧
    (decode w = .ok .invmixcolumns ↔ w = commandWord 0 0 0 0x26) ∧ (decode w = .ok .addkey ↔ w = commandWord 0 0 0 0x27)) ∧
  (∀ x : Byte, mixMatrix.mulVec ⟨x, x, x, x⟩ = ⟨x, x, x, x⟩ ∧ invMixMatrix.mulVec ⟨x, x, x, x⟩ = ⟨x, x, x, x⟩) ∧
  (mixMatrix.mulVec ⟨0xd4, 0xd4, 0xd4, 0xd5⟩ = ⟨0xd5, 0xd5, 0xd7, 0xd6⟩ ∧
    mixMatrix.mulVec ⟨0xdb, 0x13, 0x53, 0x45⟩ = ⟨0x8e, 0x4d, 0xa1, 0xbc⟩ ∧
    invMixMatrix.mulVec ⟨0x8e, 0x4d, 0xa1, 0xbc⟩ = ⟨0xdb, 0x13, 0x53, 0x45⟩) ∧
  (∀ v : Block, invMixColumns (mixColumns v) = v) ∧
  (∀ v k : Block, addRoundKey v (Block.ofHex 0) = v ∧ addRoundKey (addRoundKey v k) k = v ∧
    addRoundKey (Block.ofHex 0) k = k)

/-- R171, R173, R175, R176: each transform and its inverse undo each other, in both orders, with the tables of any state
whose SBRDY is 1. -/
def Obligations.TransformsAreUndone : Prop :=
  (∀ (s : State) (v : Block), s.Inv → s.sbrdy = true →
    invSubBytes s.isbox (subBytes s.sbox v) = v ∧ subBytes s.sbox (invSubBytes s.isbox v) = v) ∧
  (∀ v : Block, invShiftRows (shiftRows v) = v ∧ shiftRows (invShiftRows v) = v ∧
    invMixColumns (mixColumns v) = v ∧ mixColumns (invMixColumns v) = v) ∧
  (∀ v k : Block, addRoundKey (addRoundKey v k) k = v)

/-! ## Round-key commands -/

/-- R183, R193 to R196: with KSV = 1 and k <= ROUNDS, where RKS[k] holds `rk`, each round-key command completes, writes to
ST the composition its rule states, and changes nothing else; with their encodings, and the rules' examples. -/
def Obligations.RoundKeyCommandsWriteSt : Prop :=
  (∀ (k : Byte) (s : State) (rk : Block), s.ksv = true → k.toNat ≤ s.rounds → s.rks[k.toNat]? = some rk →
    exec (.addrk k) s = .next { s with st := addRoundKey s.st rk, pend := none } ∧
    exec (.round k) s = .next
      { s with st := addRoundKey (mixColumns (shiftRows (subBytes s.sbox s.st))) rk, pend := none } ∧
    exec (.finalround k) s = .next { s with st := addRoundKey (shiftRows (subBytes s.sbox s.st)) rk, pend := none } ∧
    exec (.invround k) s = .next
      { s with st := invSubBytes s.isbox (invShiftRows (invMixColumns (addRoundKey s.st rk))), pend := none } ∧
    exec (.invfinalround k) s = .next
      { s with st := invSubBytes s.isbox (invShiftRows (addRoundKey s.st rk)), pend := none }) ∧
  (∀ (k : Byte) (w : Word),
    (decode w = .ok (.addrk k) ↔ w = commandWord 0 0 k 0x23) ∧ (decode w = .ok (.round k) ↔ w = commandWord 0 0 k 0x28) ∧
    (decode w = .ok (.finalround k) ↔ w = commandWord 0 0 k 0x29) ∧
    (decode w = .ok (.invround k) ↔ w = commandWord 0 0 k 0x2a) ∧
    (decode w = .ok (.invfinalround k) ↔ w = commandWord 0 0 k 0x2b)) ∧
  (∀ s : State, s.Inv → s.ksv = true → s.rounds = 10 → s.key = Block.ofHex 0x2b7e151628aed2a6abf7158809cf4f3c →
    ∀ p ∈ [(Instr.addrk 1, Block.ofHex 0, Block.ofHex 0xa0fafe1788542cb123a339392a6c7605),
        (Instr.addrk 0, Block.ofHex 0, s.key),
        (Instr.round 1, Block.ofHex 0x5f16707444c1b1cdc98570e962aa3d4f, Block.ofHex 0x78b27c67a9814313817336d97a153253),
        (Instr.finalround 10, Block.ofHex 0xffd314bd59cefed6a8c693e0f9aafec1,
          Block.ofHex 0xc69f25d0025a9ef32393f63e2f05b747),
        (Instr.invround 1, Block.ofHex 0x78b27c67a9814313817336d97a153253, Block.ofHex 0x5f16707444c1b1cdc98570e962aa3d4f),
        (Instr.invfinalround 10, Block.ofHex 0xc69f25d0025a9ef32393f63e2f05b747,
          Block.ofHex 0xffd314bd59cefed6a8c693e0f9aafec1)],
      s.st = p.2.1 → ∃ t, exec p.1 s = .next t ∧ t.st = p.2.2)

/-- 44_transforms.md section 1, 60_exceptions.md section 2: in every state of the block whose schedule is valid, a
round-key command completes at every index up to ROUNDS, with the round key that `expand(KEY, ROUNDS)` gives. -/
def Obligations.RoundKeyCommandsUseTheCurrentSchedule : Prop :=
  ∀ (k : Byte) (s : State), s.Inv → s.ksv = true → k.toNat ≤ s.rounds →
    ∃ rk, (expand s.sbox s.key s.rounds)[k.toNat]? = some rk ∧
      exec (.addrk k) s = .next { s with st := addRoundKey s.st rk, pend := none } ∧
      exec (.round k) s = .next { s with st := cipherRound s.sbox s.st rk, pend := none } ∧
      exec (.finalround k) s = .next { s with st := cipherFinalRound s.sbox s.st rk, pend := none } ∧
      exec (.invround k) s = .next { s with st := invCipherRound s.isbox s.st rk, pend := none } ∧
      exec (.invfinalround k) s = .next { s with st := invCipherFinalRound s.isbox s.st rk, pend := none }

/-- R178, R223, R224: with KSV = 0 a round-key command takes NO_SCHEDULE (code 2) whatever its index; with KSV = 1 and
k > ROUNDS it takes BAD_INDEX (code 3).  Taking an error records it and empties PEND, and nothing else changes (R228). -/
def Obligations.RoundKeyCommandsAbort : Prop :=
  ∀ (k : Byte) (s : State), ∀ i ∈ [Instr.addrk k, .round k, .finalround k, .invround k, .invfinalround k],
    (s.ksv = false → exec i s = .next { s.withError 2 with pend := none }) ∧
    (s.ksv = true → s.rounds < k.toNat → exec i s = .next { s.withError 3 with pend := none })

/-- 45_rounds_block.md section 2: `ROUND k` then `INVROUND k`, and `FINALROUND k` then `INVFINALROUND k`, restore the
state but for PEND. -/
def Obligations.InverseRoundsUndoRounds : Prop :=
  ∀ (k : Byte) (s : State), s.Inv → s.ksv = true → k.toNat ≤ s.rounds →
    execAll [.round k, .invround k] s = .next { s with pend := none } ∧
    execAll [.finalround k, .invfinalround k] s = .next { s with pend := none }

/-! ## Blocks -/

/-- R197, R198: ENC and DEC complete in every state, re-expand the schedule into RKS whatever KSV was, set KSV, write
`encrypt` or `decrypt` of ST to ST, and change nothing else; with their encodings. -/
def Obligations.BlockCommandsWriteStAndSchedule : Prop :=
  (∀ s : State, ∃ t u, exec .enc s = .next t ∧ exec .dec s = .next u ∧
    t = { s with st := encrypt s.sbox s.st s.key s.rounds, rks := t.rks, ksv := true, pend := none } ∧
    u = { s with st := decrypt s.sbox s.isbox s.st s.key s.rounds, rks := t.rks, ksv := true, pend := none } ∧
    (∀ k : Nat, k ≤ s.rounds → t.rks[k]? = (expand s.sbox s.key s.rounds)[k]?) ∧
    (∀ k : Nat, s.rounds < k → t.rks[k]? = s.rks[k]?)) ∧
  (∀ w : Word, (decode w = .ok .enc ↔ w = commandWord 0 0 0 0x30) ∧ (decode w = .ok .dec ↔ w = commandWord 0 0 0 0x31))

/-- 45_rounds_block.md section 3, 95_test_vectors.md section 1.1: the source's known answer, in both directions, and the
all-zero vector. -/
def Obligations.SourceKnownAnswers : Prop :=
  ∀ s : State, s.Inv → s.sbrdy = true → s.rounds = 10 →
    (s.key = Block.ofHex 0x2b7e151628aed2a6abf7158809cf4f3c → s.st = Block.ofHex 0x746865626c6f636b627265616b657273 →
      ∃ t, exec .enc s = .next t ∧ t.st = Block.ofHex 0xc69f25d0025a9ef32393f63e2f05b747) ∧
    (s.key = Block.ofHex 0x2b7e151628aed2a6abf7158809cf4f3c → s.st = Block.ofHex 0xc69f25d0025a9ef32393f63e2f05b747 →
      ∃ t, exec .dec s = .next t ∧ t.st = Block.ofHex 0x746865626c6f636b627265616b657273) ∧
    (s.key = Block.ofHex 0 → s.st = Block.ofHex 0 →
      ∃ t, exec .enc s = .next t ∧ t.st = Block.ofHex 0x66e94bd4ef8a2c3b884cfa59ca342b2e)

/-- R192: the round-trip law, in both orders, for every block, key and round count R >= 1. -/
def Obligations.DecryptInvertsEncrypt : Prop :=
  ∀ (p key : Block) (rounds : Nat), 1 ≤ rounds →
    decrypt sboxTable isboxTable (encrypt sboxTable p key rounds) key rounds = p ∧
    encrypt sboxTable (decrypt sboxTable isboxTable p key rounds) key rounds = p

/-- R197: ENC then DEC, with no KEY or ROUNDS change between them, restores ST, from every state of the block whose
tables are ready. -/
def Obligations.EncThenDecRestoresSt : Prop :=
  ∀ s : State, s.Inv → s.sbrdy = true →
    ∃ t u, exec .enc s = .next t ∧ exec .dec t = .next u ∧ u = { t with st := s.st }

/-- R199: with KSV = 1, ENC leaves the same ST and RKS as ADDRK 0, ROUND 1 to ROUND ROUNDS-1 and FINALROUND ROUNDS in
order; DEC the same as INVFINALROUND ROUNDS, INVROUND ROUNDS-1 down to INVROUND 1, and ADDRK 0.  KSV = 1 holds after a
KEYEXP. -/
def Obligations.BlockCommandsEqualSingleRounds : Prop :=
  (∀ s : State, s.Inv → s.ksv = true →
    (∃ t u, exec .enc s = .next t ∧
      execAll ([Instr.addrk 0] ++ (List.range (s.rounds - 1)).map (fun r => Instr.round (BitVec.ofNat 8 (r + 1)))
        ++ [Instr.finalround (BitVec.ofNat 8 s.rounds)]) s = .next u ∧ u.st = t.st ∧ u.rks = t.rks) ∧
    (∃ t u, exec .dec s = .next t ∧
      execAll ([Instr.invfinalround (BitVec.ofNat 8 s.rounds)]
        ++ (List.range (s.rounds - 1)).map (fun j => Instr.invround (BitVec.ofNat 8 (s.rounds - 1 - j)))
        ++ [Instr.addrk 0]) s = .next u ∧ u.st = t.st ∧ u.rks = t.rks)) ∧
  (∀ s t : State, exec .keyexp s = .next t → t.ksv = true)

/-! ## Control -/

/-- R210, R211: NOP completes with no effect and CLRERR clears the error record, in every state, each for its one word;
every other word with their opcodes is illegal; the rule's STATUS example. -/
def Obligations.ControlCommandsComplete : Prop :=
  (∀ s : State, exec .nop s = .next { s with pend := none } ∧
    exec .clrerr s = .next { s with err := false, errcode := 0, pend := none }) ∧
  (∀ w : Word, (decode w = .ok .nop ↔ w = 0x00000000) ∧ (decode w = .ok .clrerr ↔ w = 0x00000001)) ∧
  (∀ (s : State) (w : Word), s.sequencerNext → s.gen = false → s.pend = some w → (fieldOp w = 0x00 ∨ fieldOp w = 0x01) →
    w >>> 8 ≠ 0 → step s = .next { s.popTurn.withError 1 with pend := none }) ∧
  (∀ s : State, s.pend = none → s.status = 0x0000001e → ∃ t, exec .clrerr s = .next t ∧ t.status = 0x00000006)
end

