-- ==== Sys2Proof/Laws/State.lean ====
section
/-!
SUPPORT. Sys2Proof/Laws/State.lean: one lemma per field per update of State, so that no proof unfolds a record update.
-/

namespace Sys2Proof.Machine

variable (s : State)

/-! ### setSt -/

@[simp] theorem State.setSt_st (v : Block) : (s.setSt v).st = v := rfl
@[simp] theorem State.setSt_key (v : Block) : (s.setSt v).key = s.key := rfl
@[simp] theorem State.setSt_rks (v : Block) : (s.setSt v).rks = s.rks := rfl
@[simp] theorem State.setSt_ksv (v : Block) : (s.setSt v).ksv = s.ksv := rfl
@[simp] theorem State.setSt_rounds (v : Block) : (s.setSt v).rounds = s.rounds := rfl
@[simp] theorem State.setSt_gfr (v : Block) : (s.setSt v).gfr = s.gfr := rfl
@[simp] theorem State.setSt_sbox (v : Block) : (s.setSt v).sbox = s.sbox := rfl
@[simp] theorem State.setSt_isbox (v : Block) : (s.setSt v).isbox = s.isbox := rfl
@[simp] theorem State.setSt_sbrdy (v : Block) : (s.setSt v).sbrdy = s.sbrdy := rfl
@[simp] theorem State.setSt_gen (v : Block) : (s.setSt v).gen = s.gen := rfl
@[simp] theorem State.setSt_pend (v : Block) : (s.setSt v).pend = s.pend := rfl
@[simp] theorem State.setSt_err (v : Block) : (s.setSt v).err = s.err := rfl
@[simp] theorem State.setSt_errcode (v : Block) : (s.setSt v).errcode = s.errcode := rfl
@[simp] theorem State.setSt_turns (v : Block) : (s.setSt v).turns = s.turns := rfl
@[simp] theorem State.setSt_again (v : Block) : (s.setSt v).again = s.again := rfl
@[simp] theorem State.setSt_reads (v : Block) : (s.setSt v).reads = s.reads := rfl
@[simp] theorem State.setSt_draws (v : Block) : (s.setSt v).draws = s.draws := rfl

/-! ### setGfr -/

@[simp] theorem State.setGfr_st (v : Byte) : (s.setGfr v).st = s.st := rfl
@[simp] theorem State.setGfr_key (v : Byte) : (s.setGfr v).key = s.key := rfl
@[simp] theorem State.setGfr_rks (v : Byte) : (s.setGfr v).rks = s.rks := rfl
@[simp] theorem State.setGfr_ksv (v : Byte) : (s.setGfr v).ksv = s.ksv := rfl
@[simp] theorem State.setGfr_rounds (v : Byte) : (s.setGfr v).rounds = s.rounds := rfl
@[simp] theorem State.setGfr_gfr (v : Byte) : (s.setGfr v).gfr = v := rfl
@[simp] theorem State.setGfr_sbox (v : Byte) : (s.setGfr v).sbox = s.sbox := rfl
@[simp] theorem State.setGfr_isbox (v : Byte) : (s.setGfr v).isbox = s.isbox := rfl
@[simp] theorem State.setGfr_sbrdy (v : Byte) : (s.setGfr v).sbrdy = s.sbrdy := rfl
@[simp] theorem State.setGfr_gen (v : Byte) : (s.setGfr v).gen = s.gen := rfl
@[simp] theorem State.setGfr_pend (v : Byte) : (s.setGfr v).pend = s.pend := rfl
@[simp] theorem State.setGfr_err (v : Byte) : (s.setGfr v).err = s.err := rfl
@[simp] theorem State.setGfr_errcode (v : Byte) : (s.setGfr v).errcode = s.errcode := rfl
@[simp] theorem State.setGfr_turns (v : Byte) : (s.setGfr v).turns = s.turns := rfl
@[simp] theorem State.setGfr_again (v : Byte) : (s.setGfr v).again = s.again := rfl
@[simp] theorem State.setGfr_reads (v : Byte) : (s.setGfr v).reads = s.reads := rfl
@[simp] theorem State.setGfr_draws (v : Byte) : (s.setGfr v).draws = s.draws := rfl

/-! ### retire -/

@[simp] theorem State.retire_st : (s.retire).st = s.st := rfl
@[simp] theorem State.retire_key : (s.retire).key = s.key := rfl
@[simp] theorem State.retire_rks : (s.retire).rks = s.rks := rfl
@[simp] theorem State.retire_ksv : (s.retire).ksv = s.ksv := rfl
@[simp] theorem State.retire_rounds : (s.retire).rounds = s.rounds := rfl
@[simp] theorem State.retire_gfr : (s.retire).gfr = s.gfr := rfl
@[simp] theorem State.retire_sbox : (s.retire).sbox = s.sbox := rfl
@[simp] theorem State.retire_isbox : (s.retire).isbox = s.isbox := rfl
@[simp] theorem State.retire_sbrdy : (s.retire).sbrdy = s.sbrdy := rfl
@[simp] theorem State.retire_gen : (s.retire).gen = s.gen := rfl
@[simp] theorem State.retire_pend : (s.retire).pend = none := rfl
@[simp] theorem State.retire_err : (s.retire).err = s.err := rfl
@[simp] theorem State.retire_errcode : (s.retire).errcode = s.errcode := rfl
@[simp] theorem State.retire_turns : (s.retire).turns = s.turns := rfl
@[simp] theorem State.retire_again : (s.retire).again = s.again := rfl
@[simp] theorem State.retire_reads : (s.retire).reads = s.reads := rfl
@[simp] theorem State.retire_draws : (s.retire).draws = s.draws := rfl

/-! ### clearError -/

@[simp] theorem State.clearError_st : (s.clearError).st = s.st := rfl
@[simp] theorem State.clearError_key : (s.clearError).key = s.key := rfl
@[simp] theorem State.clearError_rks : (s.clearError).rks = s.rks := rfl
@[simp] theorem State.clearError_ksv : (s.clearError).ksv = s.ksv := rfl
@[simp] theorem State.clearError_rounds : (s.clearError).rounds = s.rounds := rfl
@[simp] theorem State.clearError_gfr : (s.clearError).gfr = s.gfr := rfl
@[simp] theorem State.clearError_sbox : (s.clearError).sbox = s.sbox := rfl
@[simp] theorem State.clearError_isbox : (s.clearError).isbox = s.isbox := rfl
@[simp] theorem State.clearError_sbrdy : (s.clearError).sbrdy = s.sbrdy := rfl
@[simp] theorem State.clearError_gen : (s.clearError).gen = s.gen := rfl
@[simp] theorem State.clearError_pend : (s.clearError).pend = s.pend := rfl
@[simp] theorem State.clearError_err : (s.clearError).err = false := rfl
@[simp] theorem State.clearError_errcode : (s.clearError).errcode = 0 := rfl
@[simp] theorem State.clearError_turns : (s.clearError).turns = s.turns := rfl
@[simp] theorem State.clearError_again : (s.clearError).again = s.again := rfl
@[simp] theorem State.clearError_reads : (s.clearError).reads = s.reads := rfl
@[simp] theorem State.clearError_draws : (s.clearError).draws = s.draws := rfl

/-! ### loadSchedule -/

@[simp] theorem State.loadSchedule_st : (s.loadSchedule).st = s.st := rfl
@[simp] theorem State.loadSchedule_key : (s.loadSchedule).key = s.key := rfl
@[simp] theorem State.loadSchedule_rks : (s.loadSchedule).rks = expand s.sbox s.key s.rounds ++ s.rks.drop (s.rounds + 1) := rfl
@[simp] theorem State.loadSchedule_ksv : (s.loadSchedule).ksv = true := rfl
@[simp] theorem State.loadSchedule_rounds : (s.loadSchedule).rounds = s.rounds := rfl
@[simp] theorem State.loadSchedule_gfr : (s.loadSchedule).gfr = s.gfr := rfl
@[simp] theorem State.loadSchedule_sbox : (s.loadSchedule).sbox = s.sbox := rfl
@[simp] theorem State.loadSchedule_isbox : (s.loadSchedule).isbox = s.isbox := rfl
@[simp] theorem State.loadSchedule_sbrdy : (s.loadSchedule).sbrdy = s.sbrdy := rfl
@[simp] theorem State.loadSchedule_gen : (s.loadSchedule).gen = s.gen := rfl
@[simp] theorem State.loadSchedule_pend : (s.loadSchedule).pend = s.pend := rfl
@[simp] theorem State.loadSchedule_err : (s.loadSchedule).err = s.err := rfl
@[simp] theorem State.loadSchedule_errcode : (s.loadSchedule).errcode = s.errcode := rfl
@[simp] theorem State.loadSchedule_turns : (s.loadSchedule).turns = s.turns := rfl
@[simp] theorem State.loadSchedule_again : (s.loadSchedule).again = s.again := rfl
@[simp] theorem State.loadSchedule_reads : (s.loadSchedule).reads = s.reads := rfl
@[simp] theorem State.loadSchedule_draws : (s.loadSchedule).draws = s.draws := rfl

/-! ### endGeneration -/

@[simp] theorem State.endGeneration_st : (s.endGeneration).st = s.st := rfl
@[simp] theorem State.endGeneration_key : (s.endGeneration).key = s.key := rfl
@[simp] theorem State.endGeneration_rks : (s.endGeneration).rks = s.rks := rfl
@[simp] theorem State.endGeneration_ksv : (s.endGeneration).ksv = s.ksv := rfl
@[simp] theorem State.endGeneration_rounds : (s.endGeneration).rounds = s.rounds := rfl
@[simp] theorem State.endGeneration_gfr : (s.endGeneration).gfr = s.gfr := rfl
@[simp] theorem State.endGeneration_sbox : (s.endGeneration).sbox = sboxTable := rfl
@[simp] theorem State.endGeneration_isbox : (s.endGeneration).isbox = isboxTable := rfl
@[simp] theorem State.endGeneration_sbrdy : (s.endGeneration).sbrdy = true := rfl
@[simp] theorem State.endGeneration_gen : (s.endGeneration).gen = false := rfl
@[simp] theorem State.endGeneration_pend : (s.endGeneration).pend = s.pend := rfl
@[simp] theorem State.endGeneration_err : (s.endGeneration).err = s.err := rfl
@[simp] theorem State.endGeneration_errcode : (s.endGeneration).errcode = s.errcode := rfl
@[simp] theorem State.endGeneration_turns : (s.endGeneration).turns = s.turns := rfl
@[simp] theorem State.endGeneration_again : (s.endGeneration).again = s.again := rfl
@[simp] theorem State.endGeneration_reads : (s.endGeneration).reads = s.reads := rfl
@[simp] theorem State.endGeneration_draws : (s.endGeneration).draws = s.draws := rfl

/-! ### issue -/

@[simp] theorem State.issue_st (w : Word) : (s.issue w).st = s.st := rfl
@[simp] theorem State.issue_key (w : Word) : (s.issue w).key = s.key := rfl
@[simp] theorem State.issue_rks (w : Word) : (s.issue w).rks = s.rks := rfl
@[simp] theorem State.issue_ksv (w : Word) : (s.issue w).ksv = s.ksv := rfl
@[simp] theorem State.issue_rounds (w : Word) : (s.issue w).rounds = s.rounds := rfl
@[simp] theorem State.issue_gfr (w : Word) : (s.issue w).gfr = s.gfr := rfl
@[simp] theorem State.issue_sbox (w : Word) : (s.issue w).sbox = s.sbox := rfl
@[simp] theorem State.issue_isbox (w : Word) : (s.issue w).isbox = s.isbox := rfl
@[simp] theorem State.issue_sbrdy (w : Word) : (s.issue w).sbrdy = s.sbrdy := rfl
@[simp] theorem State.issue_gen (w : Word) : (s.issue w).gen = s.gen := rfl
@[simp] theorem State.issue_pend (w : Word) : (s.issue w).pend = some w := rfl
@[simp] theorem State.issue_err (w : Word) : (s.issue w).err = s.err := rfl
@[simp] theorem State.issue_errcode (w : Word) : (s.issue w).errcode = s.errcode := rfl
@[simp] theorem State.issue_turns (w : Word) : (s.issue w).turns = s.turns := rfl
@[simp] theorem State.issue_again (w : Word) : (s.issue w).again = s.again := rfl
@[simp] theorem State.issue_reads (w : Word) : (s.issue w).reads = s.reads := rfl
@[simp] theorem State.issue_draws (w : Word) : (s.issue w).draws = s.draws := rfl

/-! ### writeSt -/

@[simp] theorem State.writeSt_st (k : Fin 4) (v : Word) : (s.writeSt k v).st = s.st.setWord k v := rfl
@[simp] theorem State.writeSt_key (k : Fin 4) (v : Word) : (s.writeSt k v).key = s.key := rfl
@[simp] theorem State.writeSt_rks (k : Fin 4) (v : Word) : (s.writeSt k v).rks = s.rks := rfl
@[simp] theorem State.writeSt_ksv (k : Fin 4) (v : Word) : (s.writeSt k v).ksv = s.ksv := rfl
@[simp] theorem State.writeSt_rounds (k : Fin 4) (v : Word) : (s.writeSt k v).rounds = s.rounds := rfl
@[simp] theorem State.writeSt_gfr (k : Fin 4) (v : Word) : (s.writeSt k v).gfr = s.gfr := rfl
@[simp] theorem State.writeSt_sbox (k : Fin 4) (v : Word) : (s.writeSt k v).sbox = s.sbox := rfl
@[simp] theorem State.writeSt_isbox (k : Fin 4) (v : Word) : (s.writeSt k v).isbox = s.isbox := rfl
@[simp] theorem State.writeSt_sbrdy (k : Fin 4) (v : Word) : (s.writeSt k v).sbrdy = s.sbrdy := rfl
@[simp] theorem State.writeSt_gen (k : Fin 4) (v : Word) : (s.writeSt k v).gen = s.gen := rfl
@[simp] theorem State.writeSt_pend (k : Fin 4) (v : Word) : (s.writeSt k v).pend = s.pend := rfl
@[simp] theorem State.writeSt_err (k : Fin 4) (v : Word) : (s.writeSt k v).err = s.err := rfl
@[simp] theorem State.writeSt_errcode (k : Fin 4) (v : Word) : (s.writeSt k v).errcode = s.errcode := rfl
@[simp] theorem State.writeSt_turns (k : Fin 4) (v : Word) : (s.writeSt k v).turns = s.turns := rfl
@[simp] theorem State.writeSt_again (k : Fin 4) (v : Word) : (s.writeSt k v).again = s.again := rfl
@[simp] theorem State.writeSt_reads (k : Fin 4) (v : Word) : (s.writeSt k v).reads = s.reads := rfl
@[simp] theorem State.writeSt_draws (k : Fin 4) (v : Word) : (s.writeSt k v).draws = s.draws := rfl

/-! ### writeKey -/

@[simp] theorem State.writeKey_st (k : Fin 4) (v : Word) : (s.writeKey k v).st = s.st := rfl
@[simp] theorem State.writeKey_key (k : Fin 4) (v : Word) : (s.writeKey k v).key = s.key.setWord k v := rfl
@[simp] theorem State.writeKey_rks (k : Fin 4) (v : Word) : (s.writeKey k v).rks = s.rks := rfl
@[simp] theorem State.writeKey_ksv (k : Fin 4) (v : Word) : (s.writeKey k v).ksv = false := rfl
@[simp] theorem State.writeKey_rounds (k : Fin 4) (v : Word) : (s.writeKey k v).rounds = s.rounds := rfl
@[simp] theorem State.writeKey_gfr (k : Fin 4) (v : Word) : (s.writeKey k v).gfr = s.gfr := rfl
@[simp] theorem State.writeKey_sbox (k : Fin 4) (v : Word) : (s.writeKey k v).sbox = s.sbox := rfl
@[simp] theorem State.writeKey_isbox (k : Fin 4) (v : Word) : (s.writeKey k v).isbox = s.isbox := rfl
@[simp] theorem State.writeKey_sbrdy (k : Fin 4) (v : Word) : (s.writeKey k v).sbrdy = s.sbrdy := rfl
@[simp] theorem State.writeKey_gen (k : Fin 4) (v : Word) : (s.writeKey k v).gen = s.gen := rfl
@[simp] theorem State.writeKey_pend (k : Fin 4) (v : Word) : (s.writeKey k v).pend = s.pend := rfl
@[simp] theorem State.writeKey_err (k : Fin 4) (v : Word) : (s.writeKey k v).err = s.err := rfl
@[simp] theorem State.writeKey_errcode (k : Fin 4) (v : Word) : (s.writeKey k v).errcode = s.errcode := rfl
@[simp] theorem State.writeKey_turns (k : Fin 4) (v : Word) : (s.writeKey k v).turns = s.turns := rfl
@[simp] theorem State.writeKey_again (k : Fin 4) (v : Word) : (s.writeKey k v).again = s.again := rfl
@[simp] theorem State.writeKey_reads (k : Fin 4) (v : Word) : (s.writeKey k v).reads = s.reads := rfl
@[simp] theorem State.writeKey_draws (k : Fin 4) (v : Word) : (s.writeKey k v).draws = s.draws := rfl

/-! ### observe -/

@[simp] theorem State.observe_st (v : Word) : (s.observe v).st = s.st := rfl
@[simp] theorem State.observe_key (v : Word) : (s.observe v).key = s.key := rfl
@[simp] theorem State.observe_rks (v : Word) : (s.observe v).rks = s.rks := rfl
@[simp] theorem State.observe_ksv (v : Word) : (s.observe v).ksv = s.ksv := rfl
@[simp] theorem State.observe_rounds (v : Word) : (s.observe v).rounds = s.rounds := rfl
@[simp] theorem State.observe_gfr (v : Word) : (s.observe v).gfr = s.gfr := rfl
@[simp] theorem State.observe_sbox (v : Word) : (s.observe v).sbox = s.sbox := rfl
@[simp] theorem State.observe_isbox (v : Word) : (s.observe v).isbox = s.isbox := rfl
@[simp] theorem State.observe_sbrdy (v : Word) : (s.observe v).sbrdy = s.sbrdy := rfl
@[simp] theorem State.observe_gen (v : Word) : (s.observe v).gen = s.gen := rfl
@[simp] theorem State.observe_pend (v : Word) : (s.observe v).pend = s.pend := rfl
@[simp] theorem State.observe_err (v : Word) : (s.observe v).err = s.err := rfl
@[simp] theorem State.observe_errcode (v : Word) : (s.observe v).errcode = s.errcode := rfl
@[simp] theorem State.observe_turns (v : Word) : (s.observe v).turns = s.turns := rfl
@[simp] theorem State.observe_again (v : Word) : (s.observe v).again = s.again := rfl
@[simp] theorem State.observe_reads (v : Word) : (s.observe v).reads = s.reads ++ [v] := rfl
@[simp] theorem State.observe_draws (v : Word) : (s.observe v).draws = s.draws := rfl

/-! ### observeFree -/

@[simp] theorem State.observeFree_st : (s.observeFree).st = s.st := rfl
@[simp] theorem State.observeFree_key : (s.observeFree).key = s.key := rfl
@[simp] theorem State.observeFree_rks : (s.observeFree).rks = s.rks := rfl
@[simp] theorem State.observeFree_ksv : (s.observeFree).ksv = s.ksv := rfl
@[simp] theorem State.observeFree_rounds : (s.observeFree).rounds = s.rounds := rfl
@[simp] theorem State.observeFree_gfr : (s.observeFree).gfr = s.gfr := rfl
@[simp] theorem State.observeFree_sbox : (s.observeFree).sbox = s.sbox := rfl
@[simp] theorem State.observeFree_isbox : (s.observeFree).isbox = s.isbox := rfl
@[simp] theorem State.observeFree_sbrdy : (s.observeFree).sbrdy = s.sbrdy := rfl
@[simp] theorem State.observeFree_gen : (s.observeFree).gen = s.gen := rfl
@[simp] theorem State.observeFree_pend : (s.observeFree).pend = s.pend := rfl
@[simp] theorem State.observeFree_err : (s.observeFree).err = s.err := rfl
@[simp] theorem State.observeFree_errcode : (s.observeFree).errcode = s.errcode := rfl
@[simp] theorem State.observeFree_turns : (s.observeFree).turns = s.turns := rfl
@[simp] theorem State.observeFree_again : (s.observeFree).again = s.again := rfl
@[simp] theorem State.observeFree_reads : (s.observeFree).reads = s.reads ++ [Config.busyRead s.draws] := rfl
@[simp] theorem State.observeFree_draws : (s.observeFree).draws = s.draws + 1 := rfl

/-! ### popTurn -/

@[simp] theorem State.popTurn_st : (s.popTurn).st = s.st := rfl
@[simp] theorem State.popTurn_key : (s.popTurn).key = s.key := rfl
@[simp] theorem State.popTurn_rks : (s.popTurn).rks = s.rks := rfl
@[simp] theorem State.popTurn_ksv : (s.popTurn).ksv = s.ksv := rfl
@[simp] theorem State.popTurn_rounds : (s.popTurn).rounds = s.rounds := rfl
@[simp] theorem State.popTurn_gfr : (s.popTurn).gfr = s.gfr := rfl
@[simp] theorem State.popTurn_sbox : (s.popTurn).sbox = s.sbox := rfl
@[simp] theorem State.popTurn_isbox : (s.popTurn).isbox = s.isbox := rfl
@[simp] theorem State.popTurn_sbrdy : (s.popTurn).sbrdy = s.sbrdy := rfl
@[simp] theorem State.popTurn_gen : (s.popTurn).gen = s.gen := rfl
@[simp] theorem State.popTurn_pend : (s.popTurn).pend = s.pend := rfl
@[simp] theorem State.popTurn_err : (s.popTurn).err = s.err := rfl
@[simp] theorem State.popTurn_errcode : (s.popTurn).errcode = s.errcode := rfl
@[simp] theorem State.popTurn_turns_of_nil (h : s.turns = []) : s.popTurn.turns = s.again := by
  simp only [State.popTurn, h]
@[simp] theorem State.popTurn_turns_of_cons {a : Turn} {rest : List Turn} (h : s.turns = a :: rest) :
    s.popTurn.turns = rest := by
  simp only [State.popTurn, h]
@[simp] theorem State.popTurn_again : (s.popTurn).again = s.again := rfl
@[simp] theorem State.popTurn_reads : (s.popTurn).reads = s.reads := rfl
@[simp] theorem State.popTurn_draws : (s.popTurn).draws = s.draws := rfl

/-! ### withError -/

@[simp] theorem State.withError_st (c : BitVec 4) : (s.withError c).st = s.st := rfl
@[simp] theorem State.withError_key (c : BitVec 4) : (s.withError c).key = s.key := rfl
@[simp] theorem State.withError_rks (c : BitVec 4) : (s.withError c).rks = s.rks := rfl
@[simp] theorem State.withError_ksv (c : BitVec 4) : (s.withError c).ksv = s.ksv := rfl
@[simp] theorem State.withError_rounds (c : BitVec 4) : (s.withError c).rounds = s.rounds := rfl
@[simp] theorem State.withError_gfr (c : BitVec 4) : (s.withError c).gfr = s.gfr := rfl
@[simp] theorem State.withError_sbox (c : BitVec 4) : (s.withError c).sbox = s.sbox := rfl
@[simp] theorem State.withError_isbox (c : BitVec 4) : (s.withError c).isbox = s.isbox := rfl
@[simp] theorem State.withError_sbrdy (c : BitVec 4) : (s.withError c).sbrdy = s.sbrdy := rfl
@[simp] theorem State.withError_gen (c : BitVec 4) : (s.withError c).gen = s.gen := rfl
@[simp] theorem State.withError_pend (c : BitVec 4) : (s.withError c).pend = s.pend := rfl
@[simp] theorem State.withError_err (c : BitVec 4) : (s.withError c).err = true := rfl
@[simp] theorem State.withError_errcode (c : BitVec 4) : (s.withError c).errcode = if s.err then s.errcode else c := rfl
@[simp] theorem State.withError_turns (c : BitVec 4) : (s.withError c).turns = s.turns := rfl
@[simp] theorem State.withError_again (c : BitVec 4) : (s.withError c).again = s.again := rfl
@[simp] theorem State.withError_reads (c : BitVec 4) : (s.withError c).reads = s.reads := rfl
@[simp] theorem State.withError_draws (c : BitVec 4) : (s.withError c).draws = s.draws := rfl

/-! ### resetEvent: the fields R39 gives a reset value, and the model's own fields, which stay -/

@[simp] theorem State.resetEvent_st : s.resetEvent.st = Block.zero := rfl
@[simp] theorem State.resetEvent_key : s.resetEvent.key = Block.zero := rfl
@[simp] theorem State.resetEvent_rks : s.resetEvent.rks = List.replicate (Config.rmax + 1) Block.zero := rfl
@[simp] theorem State.resetEvent_ksv : s.resetEvent.ksv = false := rfl
@[simp] theorem State.resetEvent_rounds : s.resetEvent.rounds = 10 := rfl
@[simp] theorem State.resetEvent_gfr : s.resetEvent.gfr = 0 := rfl
@[simp] theorem State.resetEvent_sbox : s.resetEvent.sbox = Table.zero := rfl
@[simp] theorem State.resetEvent_isbox : s.resetEvent.isbox = Table.zero := rfl
@[simp] theorem State.resetEvent_sbrdy : s.resetEvent.sbrdy = false := rfl
@[simp] theorem State.resetEvent_gen : s.resetEvent.gen = true := rfl
@[simp] theorem State.resetEvent_pend : s.resetEvent.pend = none := rfl
@[simp] theorem State.resetEvent_err : s.resetEvent.err = false := rfl
@[simp] theorem State.resetEvent_errcode : s.resetEvent.errcode = 0 := rfl
@[simp] theorem State.resetEvent_turns : s.resetEvent.turns = s.turns := rfl
@[simp] theorem State.resetEvent_again : s.resetEvent.again = s.again := rfl
@[simp] theorem State.resetEvent_reads : s.resetEvent.reads = s.reads := rfl
@[simp] theorem State.resetEvent_draws : s.resetEvent.draws = s.draws := rfl

/-! ### recordError and raise -/

@[simp] theorem State.recordError_st (c : ErrorCode) : (s.recordError c).st = s.st := by
  unfold State.recordError; split <;> rfl
@[simp] theorem State.recordError_key (c : ErrorCode) : (s.recordError c).key = s.key := by
  unfold State.recordError; split <;> rfl
@[simp] theorem State.recordError_rks (c : ErrorCode) : (s.recordError c).rks = s.rks := by
  unfold State.recordError; split <;> rfl
@[simp] theorem State.recordError_ksv (c : ErrorCode) : (s.recordError c).ksv = s.ksv := by
  unfold State.recordError; split <;> rfl
@[simp] theorem State.recordError_rounds (c : ErrorCode) : (s.recordError c).rounds = s.rounds := by
  unfold State.recordError; split <;> rfl
@[simp] theorem State.recordError_gfr (c : ErrorCode) : (s.recordError c).gfr = s.gfr := by
  unfold State.recordError; split <;> rfl
@[simp] theorem State.recordError_sbox (c : ErrorCode) : (s.recordError c).sbox = s.sbox := by
  unfold State.recordError; split <;> rfl
@[simp] theorem State.recordError_isbox (c : ErrorCode) : (s.recordError c).isbox = s.isbox := by
  unfold State.recordError; split <;> rfl
@[simp] theorem State.recordError_sbrdy (c : ErrorCode) : (s.recordError c).sbrdy = s.sbrdy := by
  unfold State.recordError; split <;> rfl
@[simp] theorem State.recordError_gen (c : ErrorCode) : (s.recordError c).gen = s.gen := by
  unfold State.recordError; split <;> rfl
@[simp] theorem State.recordError_pend (c : ErrorCode) : (s.recordError c).pend = s.pend := by
  unfold State.recordError; split <;> rfl
@[simp] theorem State.recordError_turns (c : ErrorCode) : (s.recordError c).turns = s.turns := by
  unfold State.recordError; split <;> rfl
@[simp] theorem State.recordError_again (c : ErrorCode) : (s.recordError c).again = s.again := by
  unfold State.recordError; split <;> rfl
@[simp] theorem State.recordError_reads (c : ErrorCode) : (s.recordError c).reads = s.reads := by
  unfold State.recordError; split <;> rfl
@[simp] theorem State.recordError_draws (c : ErrorCode) : (s.recordError c).draws = s.draws := by
  unfold State.recordError; split <;> rfl
@[simp] theorem State.recordError_err (c : ErrorCode) : (s.recordError c).err = true := by
  unfold State.recordError; split <;> simp_all
@[simp] theorem State.recordError_errcode (c : ErrorCode) :
    (s.recordError c).errcode = if s.err then s.errcode else c.code := by
  unfold State.recordError; split <;> simp_all

/-- Recording an error is the update that `withError` writes out. -/
theorem State.recordError_eq_withError (c : ErrorCode) : s.recordError c = s.withError c.code := by
  cases s
  unfold State.recordError State.withError
  split <;> simp_all

@[simp] theorem State.raise_st (c : ErrorCode) : (s.raise c).st = s.st := by
  simp [State.raise]
@[simp] theorem State.raise_key (c : ErrorCode) : (s.raise c).key = s.key := by
  simp [State.raise]
@[simp] theorem State.raise_rks (c : ErrorCode) : (s.raise c).rks = s.rks := by
  simp [State.raise]
@[simp] theorem State.raise_ksv (c : ErrorCode) : (s.raise c).ksv = s.ksv := by
  simp [State.raise]
@[simp] theorem State.raise_rounds (c : ErrorCode) : (s.raise c).rounds = s.rounds := by
  simp [State.raise]
@[simp] theorem State.raise_gfr (c : ErrorCode) : (s.raise c).gfr = s.gfr := by
  simp [State.raise]
@[simp] theorem State.raise_sbox (c : ErrorCode) : (s.raise c).sbox = s.sbox := by
  simp [State.raise]
@[simp] theorem State.raise_isbox (c : ErrorCode) : (s.raise c).isbox = s.isbox := by
  simp [State.raise]
@[simp] theorem State.raise_sbrdy (c : ErrorCode) : (s.raise c).sbrdy = s.sbrdy := by
  simp [State.raise]
@[simp] theorem State.raise_gen (c : ErrorCode) : (s.raise c).gen = s.gen := by
  simp [State.raise]
@[simp] theorem State.raise_turns (c : ErrorCode) : (s.raise c).turns = s.turns := by
  simp [State.raise]
@[simp] theorem State.raise_again (c : ErrorCode) : (s.raise c).again = s.again := by
  simp [State.raise]
@[simp] theorem State.raise_reads (c : ErrorCode) : (s.raise c).reads = s.reads := by
  simp [State.raise]
@[simp] theorem State.raise_draws (c : ErrorCode) : (s.raise c).draws = s.draws := by
  simp [State.raise]
@[simp] theorem State.raise_pend (c : ErrorCode) : (s.raise c).pend = none := rfl
@[simp] theorem State.raise_err (c : ErrorCode) : (s.raise c).err = true := by simp [State.raise]
@[simp] theorem State.raise_errcode (c : ErrorCode) :
    (s.raise c).errcode = if s.err then s.errcode else c.code := by simp [State.raise]

/-- Taking an error is recording it and emptying PEND. -/
theorem State.raise_eq_withError (c : ErrorCode) : s.raise c = { s.withError c.code with pend := none } := by
  simp [State.raise, State.recordError_eq_withError, State.retire]

/-! ### writeRounds -/

/-- A legal round count is written and clears KSV. -/
theorem State.writeRounds_of_legal (v : Word) (h : 1 ≤ v.toNat ∧ v.toNat ≤ Config.rmax) :
    s.writeRounds v = { s with rounds := v.toNat, ksv := false } := if_pos h

/-- An illegal round count is dropped and recorded. -/
theorem State.writeRounds_of_illegal (v : Word) (h : ¬(1 ≤ v.toNat ∧ v.toNat ≤ Config.rmax)) :
    s.writeRounds v = s.recordError .badRounds := if_neg h

end Sys2Proof.Machine
end

