-- ==== Sys2Proof/Laws/Ops.lean ====
section
/-!
SUPPORT. Sys2Proof/Laws/Ops.lean: one lemma per shared operation that says what it can do; later proofs cite these and
unfold neither the operations nor the meanings.
-/

namespace Sys2Proof.Machine

/-! ## BUSY and the round-key precondition -/

/-- The block is idle exactly when no generation is in progress and no command is pending. -/
theorem State.busy_eq_false_iff (s : State) : s.busy = false ↔ s.gen = false ∧ s.pend = none := by
  simp [State.busy]

/-- `require_rk(k)` passes exactly when the schedule is valid and the index is in range. -/
theorem State.requireRk_eq_none_iff (s : State) (k : Byte) :
    s.requireRk k = none ↔ s.ksv = true ∧ k.toNat ≤ s.rounds := by
  unfold State.requireRk
  split
  · simp_all
  · split <;> simp_all

/-- NO_SCHEDULE comes first. -/
theorem State.requireRk_of_no_schedule (s : State) (k : Byte) (h : s.ksv = false) :
    s.requireRk k = some .noSchedule := if_pos h

/-- BAD_INDEX comes second. -/
theorem State.requireRk_of_bad_index (s : State) (k : Byte) (h : s.ksv = true) (hk : s.rounds < k.toNat) :
    s.requireRk k = some .badIndex := by
  simp [State.requireRk, h, hk]

/-- A round-key command whose precondition fails takes the error. -/
theorem withRoundKey_of_error {k : Byte} {s : State} {c : ErrorCode} (f : Block → Block → Block)
    (h : s.requireRk k = some c) : withRoundKey k s f = .next (s.raise c) := by
  simp [withRoundKey, h]

/-- A round-key command whose precondition holds writes ST from the entry. -/
theorem withRoundKey_of_entry {k : Byte} {s : State} {rk : Block} (f : Block → Block → Block)
    (h : s.requireRk k = none) (hk : s.rks[k.toNat]? = some rk) :
    withRoundKey k s f = .next (s.setSt (f s.st rk)).retire := by
  simp [withRoundKey, h, hk]

/-- What a round-key command can do when it gives a next state. -/
theorem withRoundKey_cases {k : Byte} {s t : State} {f : Block → Block → Block} (h : withRoundKey k s f = .next t) :
    (∃ c, s.requireRk k = some c ∧ t = s.raise c) ∨
    (∃ rk, s.requireRk k = none ∧ s.rks[k.toNat]? = some rk ∧ t = (s.setSt (f s.st rk)).retire) := by
  unfold withRoundKey at h
  split at h
  · next c hc => cases h; exact .inl ⟨c, hc, rfl⟩
  · next hc =>
    split at h
    · next rk hk => cases h; exact .inr ⟨rk, hc, hk, rfl⟩
    · cases h

/-- A round-key command never refuses. -/
theorem withRoundKey_not_refused {k : Byte} {s : State} {f : Block → Block → Block} {r : Refusal} :
    withRoundKey k s f ≠ .refused r := by
  unfold withRoundKey
  split
  · simp
  · split <;> simp

/-! ## exec -/

/-- What a command can do when it gives a next state: one case for each shape of effect. -/
theorem exec_cases {i : Instr} {s t : State} (h : exec i s = .next t) :
    (i.opcode = .nop ∧ t = s.retire) ∨
    (i.opcode = .clrerr ∧ t = s.clearError.retire) ∨
    (i.opcode ∈ [.gfadd, .gfmul, .gfinv, .gfpow, .gfaff, .sbox, .isbox] ∧ ∃ v, t = (s.setGfr v).retire) ∨
    (i.opcode = .keyexp ∧ t = s.loadSchedule.retire) ∨
    (i.opcode ∈ [.subbytes, .shiftrows, .mixcolumns, .invsubbytes, .invshiftrows, .invmixcolumns, .addkey] ∧
      ∃ v, t = (s.setSt v).retire) ∨
    (i.opcode ∈ [.addrk, .round, .finalround, .invround, .invfinalround] ∧
      ((∃ c, s.requireRk i.operandA = some c ∧ t = s.raise c) ∨
       (∃ rk v, s.requireRk i.operandA = none ∧ s.rks[i.operandA.toNat]? = some rk ∧ t = (s.setSt v).retire))) ∨
    (i.opcode ∈ [.enc, .dec] ∧ ∃ v, t = (s.loadSchedule.setSt v).retire) := by
  have rk : ∀ {k f}, withRoundKey k s f = .next t → (∃ c, s.requireRk k = some c ∧ t = s.raise c) ∨
      (∃ rk v, s.requireRk k = none ∧ s.rks[k.toNat]? = some rk ∧ t = (s.setSt v).retire) := by
    intro k f hw
    rcases withRoundKey_cases hw with hc | ⟨rk, hn, hk, ht⟩
    · exact .inl hc
    · exact .inr ⟨rk, _, hn, hk, ht⟩
  cases i
  case nop => cases h; exact .inl ⟨rfl, rfl⟩
  case clrerr => cases h; exact .inr (.inl ⟨rfl, rfl⟩)
  case gfadd | gfmul | gfinv | gfpow | gfaff | sbox | isbox =>
    cases h; exact .inr (.inr (.inl ⟨by simp [Instr.opcode], _, rfl⟩))
  case keyexp => cases h; exact .inr (.inr (.inr (.inl ⟨rfl, rfl⟩)))
  case subbytes | shiftrows | mixcolumns | invsubbytes | invshiftrows | invmixcolumns | addkey =>
    cases h; exact .inr (.inr (.inr (.inr (.inl ⟨by simp [Instr.opcode], _, rfl⟩))))
  case addrk k => exact .inr (.inr (.inr (.inr (.inr (.inl ⟨by simp [Instr.opcode], rk h⟩)))))
  case round k => exact .inr (.inr (.inr (.inr (.inr (.inl ⟨by simp [Instr.opcode], rk h⟩)))))
  case finalround k => exact .inr (.inr (.inr (.inr (.inr (.inl ⟨by simp [Instr.opcode], rk h⟩)))))
  case invround k => exact .inr (.inr (.inr (.inr (.inr (.inl ⟨by simp [Instr.opcode], rk h⟩)))))
  case invfinalround k => exact .inr (.inr (.inr (.inr (.inr (.inl ⟨by simp [Instr.opcode], rk h⟩)))))
  case enc | dec => cases h; exact .inr (.inr (.inr (.inr (.inr (.inr ⟨by simp [Instr.opcode], _, rfl⟩)))))

/-- No command is refused. -/
theorem exec_not_refused (i : Instr) (s : State) (r : Refusal) : exec i s ≠ .refused r := by
  cases i
  case addrk | round | finalround | invround | invfinalround => exact withRoundKey_not_refused
  all_goals exact fun h => nomatch h

/-- Only a round-key command faults, and only where its index has passed the checks and RKS has no such entry. -/
theorem exec_fault {i : Instr} {s : State} {f : Fault} (h : exec i s = .fault f) :
    s.requireRk i.operandA = none ∧ s.rks[i.operandA.toNat]? = none := by
  have rk : ∀ {k g}, withRoundKey k s g = .fault f → s.requireRk k = none ∧ s.rks[k.toNat]? = none := by
    intro k g hw
    unfold withRoundKey at hw
    split at hw
    · cases hw
    · next hc =>
      split at hw
      · cases hw
      · next hk => exact ⟨hc, hk⟩
  cases i
  case addrk | round | finalround | invround | invfinalround => exact rk h
  all_goals exact nomatch h

/-! ## The key schedule -/

/-- The schedule has ROUNDS+1 round keys. -/
@[simp] theorem length_expand (sbox : Table) (key : Block) (rounds : Nat) :
    (expand sbox key rounds).length = rounds + 1 := by
  simp [expand]

/-- Entry `r` of the schedule. -/
theorem getElem?_expand (sbox : Table) (key : Block) {rounds r : Nat} (h : r ≤ rounds) :
    (expand sbox key rounds)[r]? = some (roundKey sbox key r) := by
  simp [expand, Nat.lt_succ_of_le h]

/-- After `loadSchedule` the first ROUNDS+1 entries are the schedule. -/
theorem State.take_loadSchedule (s : State) :
    s.loadSchedule.rks.take (s.rounds + 1) = expand s.sbox s.key s.rounds := by
  simp

/-- `loadSchedule` keeps the size of a file that is large enough. -/
theorem State.length_loadSchedule (s : State) (h : s.rounds + 1 ≤ s.rks.length) :
    s.loadSchedule.rks.length = s.rks.length := by
  simp; omega

/-! ## Tables -/

/-- An entry of a table given by a function. -/
@[simp] theorem entry_ofFn (f : Fin 256 → Byte) (a : Byte) : Table.entry (Vector.ofFn f) a = f a.toFin := by
  simp [Table.entry]

/-- An entry of the table that the generator makes. -/
theorem entry_generateSbox (a : Byte) : generateSbox.entry a = sboxEntry a := by
  simp [generateSbox]

end Sys2Proof.Machine
end

