-- ==== Sys2Proof/Laws/PerInstr.lean ====
section
/-!
SUPPORT. Sys2Proof/Laws/PerInstr.lean: facts about each command as syntax, one lemma per constructor of Instr.

EncodeLayout: the four fields of a command's word are the opcode number, its operands or 0, and 0 (R71, R73, R78).
-/

namespace Sys2Proof.Laws.EncodeLayout

/-- The fields of the word of a command, and that the opcode number names the command's operation. -/
def Statement (i : Instr) : Prop :=
  fieldOp (encode i) = i.opcode.code ∧ fieldA (encode i) = i.operandA ∧ fieldB (encode i) = i.operandB ∧
  fieldRsv (encode i) = 0 ∧ Opcode.ofCode i.opcode.code = some i.opcode ∧
  i.opcode.instr i.operandA i.operandB = i ∧
  (i.opcode.usesA = false → i.operandA = 0) ∧ (i.opcode.usesB = false → i.operandB = 0)

/-- The fields of a word made of four bytes. -/
theorem fields_commandWord (rsv b a op : Byte) :
    fieldOp (commandWord rsv b a op) = op ∧ fieldA (commandWord rsv b a op) = a ∧
    fieldB (commandWord rsv b a op) = b ∧ fieldRsv (commandWord rsv b a op) = rsv := by
  have bit : ∀ i, i < 8 → (¬ 8 + i < 8 ∧ 8 + i - 8 = i) ∧ (¬ 16 + i < 8 ∧ ¬ 16 + i - 8 < 8 ∧ 16 + i - 8 - 8 = i) ∧
      (¬ 24 + i < 8 ∧ ¬ 24 + i - 8 < 8 ∧ ¬ 24 + i - 8 - 8 < 8 ∧ 24 + i - 8 - 8 - 8 = i) := by
    intro i hi; omega
  refine ⟨?_, ?_, ?_, ?_⟩ <;>
  · apply BitVec.eq_of_getLsbD_eq
    intro i hi
    simp only [fieldOp, fieldA, fieldB, fieldRsv, commandWord, BitVec.getLsbD_extractLsb', BitVec.getLsbD_append]
    simp [hi, bit i hi]

/-- The layout of any command whose operation and operands fit together. -/
theorem of_syntax {i : Instr} (hc : Opcode.ofCode i.opcode.code = some i.opcode)
    (hi : i.opcode.instr i.operandA i.operandB = i) (ha : i.opcode.usesA = false → i.operandA = 0)
    (hb : i.opcode.usesB = false → i.operandB = 0) : Statement i :=
  have h := fields_commandWord 0 i.operandB i.operandA i.opcode.code
  ⟨h.1, h.2.1, h.2.2.1, h.2.2.2, hc, hi, ha, hb⟩

theorem nop : Statement .nop := of_syntax rfl rfl (fun _ => rfl) (fun _ => rfl)
theorem clrerr : Statement .clrerr := of_syntax rfl rfl (fun _ => rfl) (fun _ => rfl)
theorem gfadd (a b : Byte) : Statement (.gfadd a b) := of_syntax rfl rfl (nofun) (nofun)
theorem gfmul (a b : Byte) : Statement (.gfmul a b) := of_syntax rfl rfl (nofun) (nofun)
theorem gfinv (a : Byte) : Statement (.gfinv a) := of_syntax rfl rfl (nofun) (fun _ => rfl)
theorem gfpow (a e : Byte) : Statement (.gfpow a e) := of_syntax rfl rfl (nofun) (nofun)
theorem gfaff (a : Byte) : Statement (.gfaff a) := of_syntax rfl rfl (nofun) (fun _ => rfl)
theorem sbox (a : Byte) : Statement (.sbox a) := of_syntax rfl rfl (nofun) (fun _ => rfl)
theorem isbox (a : Byte) : Statement (.isbox a) := of_syntax rfl rfl (nofun) (fun _ => rfl)
theorem keyexp : Statement .keyexp := of_syntax rfl rfl (fun _ => rfl) (fun _ => rfl)
theorem subbytes : Statement .subbytes := of_syntax rfl rfl (fun _ => rfl) (fun _ => rfl)
theorem shiftrows : Statement .shiftrows := of_syntax rfl rfl (fun _ => rfl) (fun _ => rfl)
theorem mixcolumns : Statement .mixcolumns := of_syntax rfl rfl (fun _ => rfl) (fun _ => rfl)
theorem addrk (k : Byte) : Statement (.addrk k) := of_syntax rfl rfl (nofun) (fun _ => rfl)
theorem invsubbytes : Statement .invsubbytes := of_syntax rfl rfl (fun _ => rfl) (fun _ => rfl)
theorem invshiftrows : Statement .invshiftrows := of_syntax rfl rfl (fun _ => rfl) (fun _ => rfl)
theorem invmixcolumns : Statement .invmixcolumns := of_syntax rfl rfl (fun _ => rfl) (fun _ => rfl)
theorem addkey : Statement .addkey := of_syntax rfl rfl (fun _ => rfl) (fun _ => rfl)
theorem round (k : Byte) : Statement (.round k) := of_syntax rfl rfl (nofun) (fun _ => rfl)
theorem finalround (k : Byte) : Statement (.finalround k) := of_syntax rfl rfl (nofun) (fun _ => rfl)
theorem invround (k : Byte) : Statement (.invround k) := of_syntax rfl rfl (nofun) (fun _ => rfl)
theorem invfinalround (k : Byte) : Statement (.invfinalround k) := of_syntax rfl rfl (nofun) (fun _ => rfl)
theorem enc : Statement .enc := of_syntax rfl rfl (fun _ => rfl) (fun _ => rfl)
theorem dec : Statement .dec := of_syntax rfl rfl (fun _ => rfl) (fun _ => rfl)

end Sys2Proof.Laws.EncodeLayout
end

