-- ==== Sys2Proof/Laws/Step.lean ====
section
/-!
SUPPORT. Sys2Proof/Laws/Step.lean: what a step is for each kind of turn, and what it can do.
-/

namespace Sys2Proof.Machine

/-- With no turns to come, the turns that come again follow. -/
theorem State.popTurn_of_nil {s : State} (h : s.turns = []) : s.popTurn = { s with turns := s.again } := by
  simp [State.popTurn, h]

/-- A step whose turn is the sequencer's. -/
theorem step_of_sequencerNext {s : State} (h : s.sequencerNext) : step s = sequencerTurn s.popTurn := by
  rcases h with h | h
  · simp [step, State.popTurn, h]
  · cases ht : s.turns with
    | nil => simp [ht] at h
    | cons a rest =>
      simp only [ht, List.head?_cons, Option.some.injEq] at h
      subst h
      simp [step, State.popTurn, ht]

/-- A step whose turn is a host read. -/
theorem step_of_read {s : State} {off : Offset} {size : Nat} {rest : List Turn} (h : s.turns = .read off size :: rest) :
    step s = .next (memRead off size s.popTurn) := by
  simp [step, State.popTurn, h]

/-- A step whose turn is a host write. -/
theorem step_of_write {s : State} {off : Offset} {size : Nat} {v : Word} {rest : List Turn}
    (h : s.turns = .write off size v :: rest) : step s = .next (memWrite off size v s.popTurn) := by
  simp [step, State.popTurn, h]

/-- A step whose turn is a reset. -/
theorem step_of_reset {s : State} {rest : List Turn} (h : s.turns = .reset :: rest) :
    step s = .next s.popTurn.resetEvent := by
  simp [step, State.popTurn, h]

/-- Whose turn it is. -/
theorem State.turn_cases (s : State) :
    s.sequencerNext ∨ (∃ off size rest, s.turns = .read off size :: rest) ∨
    (∃ off size v rest, s.turns = .write off size v :: rest) ∨ (∃ rest, s.turns = .reset :: rest) := by
  cases h : s.turns with
  | nil => exact .inl (.inl h)
  | cons a rest =>
    cases a with
    | sequencer => exact .inl (.inr (by simp [h]))
    | read off size => exact .inr (.inl ⟨off, size, rest, rfl⟩)
    | write off size v => exact .inr (.inr (.inl ⟨off, size, v, rest, rfl⟩))
    | reset => exact .inr (.inr (.inr ⟨rest, rfl⟩))

/-- What a sequencer's turn can do when it gives a next state. -/
theorem sequencerTurn_cases {s t : State} (h : sequencerTurn s = .next t) :
    (s.gen = true ∧ t = s.endGeneration) ∨
    (s.gen = false ∧ s.pend = none ∧ t = s) ∨
    (∃ w i, s.gen = false ∧ s.pend = some w ∧ decode w = .ok i ∧ exec i s = .next t) ∨
    (∃ w e, s.gen = false ∧ s.pend = some w ∧ decode w = .error e ∧ t = s.raise .illegalCmd) := by
  unfold sequencerTurn at h
  split at h
  · next hg => cases h; exact .inl ⟨hg, rfl⟩
  · next hg =>
    have hg : s.gen = false := by simpa using hg
    split at h
    · next hp => cases h; exact .inr (.inl ⟨hg, hp, rfl⟩)
    · next w hp =>
      unfold completeWord at h
      split at h
      · next i hd => exact .inr (.inr (.inl ⟨w, i, hg, hp, hd, h⟩))
      · next e hd => cases h; exact .inr (.inr (.inr ⟨w, e, hg, hp, hd, rfl⟩))

/-- The sequencer's turn while generation is in progress. -/
theorem sequencerTurn_of_gen {s : State} (h : s.gen = true) : sequencerTurn s = .next s.endGeneration := if_pos h

/-- The sequencer's turn while the block is idle. -/
theorem sequencerTurn_of_idle {s : State} (hg : s.gen = false) (hp : s.pend = none) : sequencerTurn s = .next s := by
  simp [sequencerTurn, hg, hp]

/-- The sequencer's turn with a word in PEND. -/
theorem sequencerTurn_of_pend {s : State} {w : Word} (hg : s.gen = false) (hp : s.pend = some w) :
    sequencerTurn s = completeWord w s := by
  simp [sequencerTurn, hg, hp]

/-- What a host read can do. -/
theorem memRead_cases (off : Offset) (size : Nat) (s : State) :
    (accessReg off size = none ∧ memRead off size s = (s.recordError .bus).observe 0) ∨
    (∃ r, accessReg off size = some r ∧ r.busyUnspecified = true ∧ s.busy = true ∧
      memRead off size s = s.observeFree) ∨
    (∃ r, accessReg off size = some r ∧ (r.busyUnspecified = false ∨ s.busy = false) ∧
      memRead off size s = s.observe (s.window r)) := by
  unfold memRead
  split
  · next h => exact .inl ⟨h, rfl⟩
  · next r h =>
    split
    · next hb => simp at hb; exact .inr (.inl ⟨r, h, hb.1, hb.2, rfl⟩)
    · next hb =>
      refine .inr (.inr ⟨r, h, ?_, rfl⟩)
      cases hu : r.busyUnspecified <;> simp_all

/-- What a host write can do. -/
theorem memWrite_cases (off : Offset) (size : Nat) (v : Word) (s : State) :
    (accessReg off size = none ∧ memWrite off size v s = s.recordError .bus) ∨
    (∃ r, accessReg off size = some r ∧ r.busyProtected = true ∧ s.busy = true ∧
      memWrite off size v s = s.recordError .busyWrite) ∨
    (∃ r, accessReg off size = some r ∧ (r.busyProtected = false ∨ s.busy = false) ∧
      memWrite off size v s = s.writeReg r v) := by
  unfold memWrite
  split
  · next h => exact .inl ⟨h, rfl⟩
  · next r h =>
    split
    · next hb => simp at hb; exact .inr (.inl ⟨r, h, hb.1, hb.2, rfl⟩)
    · next hb =>
      refine .inr (.inr ⟨r, h, ?_, rfl⟩)
      cases hu : r.busyProtected <;> simp_all

/-- The register of an access, where it has one, says its width and its offset. -/
theorem accessReg_eq_some_iff (off : Offset) (size : Nat) (r : WindowReg) :
    accessReg off size = some r ↔ size = 4 ∧ windowReg off = some r := by
  unfold accessReg
  split <;> simp_all

/-! ## Runs -/

/-- No command changes what the host and the sequencer do. -/
theorem exec_turns {i : Instr} {s t : State} (h : exec i s = .next t) : t.turns = s.turns ∧ t.again = s.again := by
  rcases exec_cases h with ⟨-, rfl⟩ | ⟨-, rfl⟩ | ⟨-, _, rfl⟩ | ⟨-, rfl⟩ | ⟨-, _, rfl⟩ |
    ⟨-, ⟨_, -, rfl⟩ | ⟨_, _, -, -, rfl⟩⟩ | ⟨-, _, rfl⟩ <;> simp

/-- The sequencer does not change what comes next. -/
theorem sequencerTurn_turns {s t : State} (h : sequencerTurn s = .next t) : t.turns = s.turns ∧ t.again = s.again := by
  rcases sequencerTurn_cases h with ⟨-, rfl⟩ | ⟨-, -, rfl⟩ | ⟨_, _, -, -, -, he⟩ | ⟨_, _, -, -, -, rfl⟩
  · simp
  · simp
  · exact exec_turns he
  · simp

/-- A host write does not change what comes next. -/
theorem memWrite_turns (off : Offset) (size : Nat) (v : Word) (s : State) :
    (memWrite off size v s).turns = s.turns ∧ (memWrite off size v s).again = s.again := by
  rcases memWrite_cases off size v s with ⟨-, h⟩ | ⟨_, -, -, -, h⟩ | ⟨r, -, -, h⟩
  · simp [h]
  · simp [h]
  · rw [h]
    cases r <;> simp only [State.writeReg] <;> try simp
    unfold State.writeRounds; split <;> simp

/-- A host read does not change what comes next. -/
theorem memRead_turns (off : Offset) (size : Nat) (s : State) :
    (memRead off size s).turns = s.turns ∧ (memRead off size s).again = s.again := by
  rcases memRead_cases off size s with ⟨-, h⟩ | ⟨_, -, -, -, h⟩ | ⟨_, -, -, h⟩ <;> simp [h]

/-- Every step takes the next turn off, and leaves what comes again. -/
theorem step_turns {s t : State} (h : step s = .next t) : t.turns = s.popTurn.turns ∧ t.again = s.again := by
  rcases s.turn_cases with hs | ⟨off, size, rest, hs⟩ | ⟨off, size, v, rest, hs⟩ | ⟨rest, hs⟩
  · rw [step_of_sequencerNext hs] at h; exact sequencerTurn_turns h
  · rw [step_of_read hs] at h; cases h; exact memRead_turns _ _ _
  · rw [step_of_write hs] at h; cases h; exact memWrite_turns _ _ _ _
  · rw [step_of_reset hs] at h; cases h; simp

/-- A run of a machine goes on from the state after its first step. -/
theorem run_next (M : Host.Core) {n : Nat} {s t : M.State} (h : M.step s = .next t) : M.run (n + 1) s = M.run n t := by
  simp [Host.Core.run, h]

/-- A run of a machine that gives a state takes a first step. -/
theorem run_eq_next (M : Host.Core) {n : Nat} {s t : M.State} (h : M.run (n + 1) s = .next t) :
    ∃ u, M.step s = .next u ∧ M.run n u = .next t := by
  unfold Host.Core.run at h
  split at h
  · next u hu => exact ⟨u, hu, h⟩
  · cases h
  · cases h

/-- When a run has ended. -/
theorem State.ended_iff (s : State) :
    s.ended = true ↔ (∀ turn ∈ s.turns ++ s.again, turn = .sequencer) ∧ s.busy = false := by
  simp [State.ended, State.hostDone, or_imp, forall_and]

/-- An ended run has an observation, and only an ended run has one. -/
theorem State.observation_eq_some_iff (s : State) (o : Observation) :
    s.observation = some o ↔ s.ended = true ∧ o = ⟨s.reads, s.registers⟩ := by
  unfold State.observation
  split
  · next h => exact ⟨fun e => ⟨h, (Option.some.inj e).symm⟩, fun e => congrArg some e.2.symm⟩
  · next h => exact ⟨nofun, fun e => absurd e.1 h⟩

end Sys2Proof.Machine
end

