-- ==== Sys2Proof/Machine/HostProgram.lean ====
section
/-!
DEFINITION. Sys2Proof/Machine/HostProgram.lean: the host's actions (R79) as the turns they expand to.

The host is the other agent (R20); its programs are lists of actions, "the host's macros, not block commands".
-/

namespace Sys2Proof.Machine

/-- A host action (R79).  A hex string is given as the number its digits denote. -/
inductive HostAction where
  /-- `WR off, v` -/
  | wr (off : Offset) (v : Word)
  /-- `RD off -> name` -/
  | rd (off : Offset)
  /-- `CMD mnemonic ops` -/
  | cmd (i : Instr)
  /-- `WAIT` -/
  | wait
  /-- `LDST hex32` -/
  | ldst (hex : Nat)
  /-- `LDKEY hex32` -/
  | ldkey (hex : Nat)
  /-- `RDST -> name`: the four words read make the block `Block.ofWords` -/
  | rdst
  /-- `SETR n` -/
  | setr (n : Word)
  /-- `DO mnemonic ops` -/
  | doCmd (i : Instr)
  deriving DecidableEq, Repr

/-- `WR off, v` is `MemWrite(off, 4, v)`. -/
def wrTurn (off : Offset) (v : Word) : Turn := .write off 4 v

/-- `RD off` is `MemRead(off, 4)`. -/
def rdTurn (off : Offset) : Turn := .read off 4

/-- `WAIT` is "repeat `RD 0x04 -> s` until `s[0] = 0`".  A list of turns is one schedule; this is the one in which the
sequencer completes before the first poll, and a poll that finds BUSY = 1 would change no register (log entry 8). -/
def waitTurns : List Turn := [.sequencer, rdTurn 0x04]

/-- The expansion of a host action (R79). -/
def HostAction.turns : HostAction → List Turn
  | .wr off v => [wrTurn off v]
  | .rd off => [rdTurn off]
  | .cmd i => [wrTurn 0x00 (encode i)]
  | .wait => waitTurns
  | .ldst hex =>
    let v := Block.ofHex hex
    [wrTurn 0x10 (v.word 0), wrTurn 0x14 (v.word 1), wrTurn 0x18 (v.word 2), wrTurn 0x1c (v.word 3)]
  | .ldkey hex =>
    let v := Block.ofHex hex
    [wrTurn 0x20 (v.word 0), wrTurn 0x24 (v.word 1), wrTurn 0x28 (v.word 2), wrTurn 0x2c (v.word 3)]
  | .rdst => [rdTurn 0x10, rdTurn 0x14, rdTurn 0x18, rdTurn 0x1c]
  | .setr n => [wrTurn 0x08 n]
  | .doCmd i => wrTurn 0x00 (encode i) :: waitTurns

/-- The turns of a host program, in order.  R21 leaves open whether a `complete` step comes between two host actions;
this is ONE schedule of the program, in which the sequencer moves at WAIT and DO only, so that a plain CMD is followed
at once by the next action, host first (DESIGN CHOICE, log entry 18).  Every other schedule of the program is this list
with `.sequencer` turns at other places, and `step` runs those too. -/
def hostProgram (actions : List HostAction) : List Turn := actions.flatMap HostAction.turns

/-- A state with a host placed in it, which first performs `actions`, and then performs `loop` again and again: [] for a
host that stops, `[.rd 0x04]` for "A host that polls forever" (R250).  In each round of the loop the sequencer moves once
(log entry 1). -/
def State.withHost (s : State) (actions loop : List HostAction) : State :=
  { s with turns := hostProgram actions, again := hostProgram loop }

/-! ## The bus -/

/-- A read on the bus: it reaches the block only where its address lies in the window or in an alias of it (R41). -/
def busRead (addr size : Nat) : Option Turn := (windowOffset addr).map fun off => .read off size

/-- A write on the bus: it reaches the block only where its address lies in the window or in an alias of it (R41). -/
def busWrite (addr size : Nat) (v : Word) : Option Turn := (windowOffset addr).map fun off => .write off size v

end Sys2Proof.Machine
end

