-- ==== Sys2Proof/Tests/Slice0.lean ====
section
/-!
SUPPORT. Sys2Proof/Tests/Slice0.lean: the model's own tests.  Expected values come from the spec: the examples of the
rules, and the vectors of 95_test_vectors.md; a test's comment names the place.  The last part shows, for each
statement with hypotheses, a concrete state and operands that meet them.
-/

namespace Sys2Proof.Tests

open Sys2Proof Sys2Proof.Machine

/-! ## Decoding: words written out from R71 and R74 -/

/-- Group 0x00: NOP, CLRERR. -/
theorem test_decode_control : decode 0x00000000 = .ok .nop ∧ decode 0x00000001 = .ok .clrerr := by decide

/-- Group 0x08: the field commands; A in bits 15:8, B in bits 23:16. -/
theorem test_decode_field :
    decode 0b00000000_10000011_01010111_00001000 = .ok (.gfadd 0x57 0x83) ∧
    decode 0b00000000_10000011_01010111_00001001 = .ok (.gfmul 0x57 0x83) ∧
    decode 0b00000000_00000000_01010011_00001010 = .ok (.gfinv 0x53) ∧
    decode 0b00000000_11111110_00000010_00001011 = .ok (.gfpow 0x02 0xfe) ∧
    decode 0b00000000_00000000_11001010_00001100 = .ok (.gfaff 0xca) := by decide

/-- Group 0x10: the table reads; group 0x18: KEYEXP. -/
theorem test_decode_tables :
    decode 0b00000000_00000000_01010011_00010000 = .ok (.sbox 0x53) ∧
    decode 0b00000000_00000000_11101101_00010001 = .ok (.isbox 0xed) ∧
    decode 0b00000000_00000000_00000000_00011000 = .ok .keyexp := by decide

/-- Group 0x20: the transforms. -/
theorem test_decode_transforms :
    decode 0b00000000_00000000_00000000_00100000 = .ok .subbytes ∧
    decode 0b00000000_00000000_00000000_00100001 = .ok .shiftrows ∧
    decode 0b00000000_00000000_00000000_00100010 = .ok .mixcolumns ∧
    decode 0b00000000_00000000_00001010_00100011 = .ok (.addrk 10) ∧
    decode 0b00000000_00000000_00000000_00100100 = .ok .invsubbytes ∧
    decode 0b00000000_00000000_00000000_00100101 = .ok .invshiftrows ∧
    decode 0b00000000_00000000_00000000_00100110 = .ok .invmixcolumns ∧
    decode 0b00000000_00000000_00000000_00100111 = .ok .addkey := by decide

/-- Group 0x28: the rounds; group 0x30: ENC and DEC. -/
theorem test_decode_rounds :
    decode 0b00000000_00000000_00000001_00101000 = .ok (.round 1) ∧
    decode 0b00000000_00000000_00001010_00101001 = .ok (.finalround 10) ∧
    decode 0b00000000_00000000_11111111_00101010 = .ok (.invround 255) ∧
    decode 0b00000000_00000000_00000000_00101011 = .ok (.invfinalround 0) ∧
    decode 0b00000000_00000000_00000000_00110000 = .ok .enc ∧
    decode 0b00000000_00000000_00000000_00110001 = .ok .dec := by decide

/-- The illegal words of R80 and of 95_test_vectors.md sections 2.1 and 2.4, each with its reason. -/
theorem test_decode_illegal :
    decode 0x00000002 = .error .reservedOpcode ∧ decode 0x0000000d = .error .reservedOpcode ∧
    decode 0x01000000 = .error .reservedField ∧ decode 0x0100000c = .error .reservedField ∧
    decode 0x01000523 = .error .reservedField ∧ decode 0x00000120 = .error .unusedA ∧
    decode 0x00010023 = .error .unusedB ∧ decode 0x0001530a = .error .unusedB := by decide

/-- The host's numbering of bits is the command word's own. -/
theorem test_decodeTableWord :
    decodeTableWord 32 0x00835709 = some (.gfmul 0x57 0x83) ∧ decodeTableWord 32 0x00000002 = none := by decide

/-! ## Well-formedness: the assembler's checks (R78) -/

theorem test_asm_missing_operand : (AsmLine.mk .gfmul [0x57]).check = some .missingOperand := by decide
theorem test_asm_extra_operand : (AsmLine.mk .enc [1]).check = some .extraOperand := by decide
theorem test_asm_operand_range : (AsmLine.mk .addrk [256]).check = some .operandRange := by decide
theorem test_asm_well_formed : (AsmLine.mk .gfpow [2, 255]).wellFormed = true := by decide

/-- R80: `GFMUL 0x57, 0x83` and `GFPOW 0x02, 254`; and ` ENC ` with blanks at both ends (log entry 17). -/
theorem test_assemble :
    assemble ['G', 'F', 'M', 'U', 'L', ' ', '0', 'x', '5', '7', ',', ' ', '0', 'x', '8', '3'] = .ok 0x00835709 ∧
    assemble ['G', 'F', 'P', 'O', 'W', ' ', '0', 'x', '0', '2', ',', ' ', '2', '5', '4'] = .ok 0x00fe020b ∧
    assemble [' ', 'E', 'N', 'C', ' '] = .ok 0x00000030 ∧
    assemble ['A', 'D', 'D', 'R', 'K', ' ', '1', ' ', '2'] = .error .notANumber ∧
    assemble ['E', 'N', 'D'] = .error .unknownMnemonic := by decide

/-! ## States for the tests -/

/-- An idle state with tables, a schedule file of 11 entries and the given key and cipher state. -/
def idle (key st : Nat) : State :=
  { State.reset.endGeneration with rks := List.replicate 11 Block.zero, key := Block.ofHex key, st := Block.ofHex st }

/-- The source's key (95_test_vectors.md). -/
def keyK : Nat := 0x2b7e151628aed2a6abf7158809cf4f3c

/-- The bytes 00 01 ... 0f (95_test_vectors.md). -/
def seqBytes : Nat := 0x000102030405060708090a0b0c0d0e0f

/-- The state after an outcome; the state before where there is none. -/
def after (o : Host.Outcome State Fault Refusal) (s : State) : State :=
  match o with
  | .next t => t
  | .fault _ => s
  | .refused _ => s

/-- A state whose RKS[1] is round key 1 of the source's key, with KSV = 1. -/
def scheduled (st : Nat) : State :=
  { idle keyK st with
    rks := [Block.ofHex keyK, Block.ofHex 0xa0fafe1788542cb123a339392a6c7605]
      ++ List.replicate 8 Block.zero ++ [Block.ofHex 0xd014f9a8c9ee2589e13f0cc8b6630ca6]
    ksv := true }

/-! ## Field commands: 95_test_vectors.md section 2.1 -/

theorem test_gfadd : (after (exec (.gfadd 0x57 0x83) (idle 0 0)) (idle 0 0)).gfr = 0xd4 := by decide
theorem test_gfmul : (after (exec (.gfmul 0xff 0xff) (idle 0 0)) (idle 0 0)).gfr = 0x13 := by decide
theorem test_gfmul_reduction : (after (exec (.gfmul 0x02 0x87) (idle 0 0)) (idle 0 0)).gfr = 0x15 := by decide +kernel
theorem test_gfinv : (after (exec (.gfinv 0x80) (idle 0 0)) (idle 0 0)).gfr = 0x83 := by decide +kernel
theorem test_gfinv_zero : (after (exec (.gfinv 0x00) (idle 0 0)) (idle 0 0)).gfr = 0x00 := by decide +kernel
theorem test_gfpow : (after (exec (.gfpow 0x03 25) (idle 0 0)) (idle 0 0)).gfr = 0x02 := by decide +kernel
theorem test_gfpow_zero_255 : (after (exec (.gfpow 0x00 255) (idle 0 0)) (idle 0 0)).gfr = 0x01 := by decide +kernel
theorem test_gfaff : (after (exec (.gfaff 0x53) (idle 0 0)) (idle 0 0)).gfr = 0x74 := by decide +kernel

/-! ## Tables: 95_test_vectors.md section 2.2 -/

theorem test_sbox : (after (exec (.sbox 0xc9) (idle 0 0)) (idle 0 0)).gfr = 0xdd := by decide +kernel
theorem test_isbox : (after (exec (.isbox 0x7f) (idle 0 0)) (idle 0 0)).gfr = 0x6b := by decide +kernel

/-- R150: the listing agrees with the generator, at the bytes of section 2.2.  (At every byte: an obligation.) -/
theorem test_listing_agrees_with_generator :
    ∀ b ∈ [0x00#8, 0x01, 0x10, 0x53, 0x7f, 0x80, 0xc9, 0xff], sboxTable.entry b = sboxEntry b := by decide +kernel

/-! ## Key schedule: 95_test_vectors.md section 2.3 -/

/-- Source section 8: round key 1. -/
theorem test_keyexp : (after (exec .keyexp (idle keyK 0)) (idle keyK 0)).rks[1]?
    = some (Block.ofHex 0xa0fafe1788542cb123a339392a6c7605) := by decide +kernel

/-- A schedule of 3 rounds leaves entry 4 alone and sets KSV. -/
theorem test_keyexp_above_rounds :
    let s := { idle keyK 0 with rounds := 3 }
    let t := after (exec .keyexp s) s
    t.rks[3]? = some (Block.ofHex 0x3d80477d4716fe3e1e237e446d7a883b) ∧ t.rks[4]? = some Block.zero ∧ t.ksv = true := by
  decide +kernel

/-! ## Transforms: 95_test_vectors.md section 2.4 -/

theorem test_subbytes : (after (exec .subbytes (idle 0 seqBytes)) (idle 0 0)).st
    = Block.ofHex 0x637c777bf26b6fc53001672bfed7ab76 := by decide +kernel
theorem test_shiftrows : (after (exec .shiftrows (idle 0 seqBytes)) (idle 0 0)).st
    = Block.ofHex 0x00050a0f04090e03080d02070c01060b := by decide +kernel
theorem test_mixcolumns : (after (exec .mixcolumns (idle 0 seqBytes)) (idle 0 0)).st
    = Block.ofHex 0x02070005060304010a0f080d0e0b0c09 := by decide +kernel
theorem test_invsubbytes : (after (exec .invsubbytes (idle 0 seqBytes)) (idle 0 0)).st
    = Block.ofHex 0x52096ad53036a538bf40a39e81f3d7fb := by decide +kernel
theorem test_invshiftrows : (after (exec .invshiftrows (idle 0 seqBytes)) (idle 0 0)).st
    = Block.ofHex 0x000d0a0704010e0b0805020f0c090603 := by decide +kernel
theorem test_invmixcolumns : (after (exec .invmixcolumns (idle 0 seqBytes)) (idle 0 0)).st
    = Block.ofHex 0x0a0f080d0e0b0c090207000506030401 := by decide +kernel
theorem test_addkey : (after (exec .addkey (idle keyK seqBytes)) (idle 0 0)).st
    = Block.ofHex 0x2b7f17152cabd4a1a3fe1f8305c24133 := by decide +kernel
theorem test_addrk : (after (exec (.addrk 1) (scheduled 0)) (idle 0 0)).st
    = Block.ofHex 0xa0fafe1788542cb123a339392a6c7605 := by decide +kernel

/-- The STATUS column of the round-key table of section 2.4: BAD_INDEX 0x3e, NO_SCHEDULE 0x2a. -/
theorem test_addrk_errors :
    (after (exec (.addrk 11) (scheduled 0)) (idle 0 0)).status = 0x3e ∧
    (after (exec (.addrk 11) (idle keyK 0)) (idle 0 0)).status = 0x2a := by decide +kernel

/-! ## Rounds and blocks: 95_test_vectors.md section 2.5 -/

theorem test_round : (after (exec (.round 1) (scheduled 0x5f16707444c1b1cdc98570e962aa3d4f)) (idle 0 0)).st
    = Block.ofHex 0x78b27c67a9814313817336d97a153253 := by decide +kernel
theorem test_finalround : (after (exec (.finalround 10) (scheduled 0xffd314bd59cefed6a8c693e0f9aafec1)) (idle 0 0)).st
    = Block.ofHex 0xc69f25d0025a9ef32393f63e2f05b747 := by decide +kernel
theorem test_invround : (after (exec (.invround 1) (scheduled 0x78b27c67a9814313817336d97a153253)) (idle 0 0)).st
    = Block.ofHex 0x5f16707444c1b1cdc98570e962aa3d4f := by decide +kernel
theorem test_invfinalround :
    (after (exec (.invfinalround 10) (scheduled 0xc69f25d0025a9ef32393f63e2f05b747)) (idle 0 0)).st
    = Block.ofHex 0xffd314bd59cefed6a8c693e0f9aafec1 := by decide +kernel

/-- ENC of the source's text at ROUNDS = 2. -/
theorem test_enc :
    let s := { idle keyK 0x746865626c6f636b627265616b657273 with rounds := 2 }
    (after (exec .enc s) s).st = Block.ofHex 0x4ece901fa9199ac6556c9007a96eec4a := by decide +kernel

/-- DEC undoes it (the same row, run back). -/
theorem test_dec :
    let s := { idle keyK 0x4ece901fa9199ac6556c9007a96eec4a with rounds := 2 }
    (after (exec .dec s) s).st = Block.ofHex 0x746865626c6f636b627265616b657273 := by decide +kernel

/-! ## Control: 95_test_vectors.md section 2.6 -/

/-- E1 -/
theorem test_nop : (after (exec .nop (idle 0 0)) (idle 0 0)).status = 0x02 := by decide

/-- R211: STATUS = 0x1e becomes 0x06. -/
theorem test_clrerr :
    let s := { scheduled 0 with err := true, errcode := 1 }
    s.status = 0x1e ∧ (after (exec .clrerr s) s).status = 0x06 := by decide

/-! ## Steps: 95_test_vectors.md section 2.6 -/

/-- E2: an illegal word completes with ILLEGAL_CMD. -/
theorem test_step_illegal :
    let s := { idle 0 0 with pend := some 0x00000002 }
    s.status = 0x03 ∧ (after (step s) s).status = 0x1a := by decide

/-- E6: ROUNDS = 0 is dropped and records BAD_ROUNDS. -/
theorem test_step_rounds_zero :
    let s := { idle 0 0 with turns := [wrTurn 0x08 0] }
    (after (step s) s).rounds = 10 ∧ (after (step s) s).status = 0x4a := by decide

/-- E9: a legal write of ROUNDS clears KSV. -/
theorem test_step_rounds_legal :
    let s := { scheduled 0 with turns := [wrTurn 0x08 3] }
    (after (step s) s).rounds = 3 ∧ (after (step s) s).status = 0x02 := by decide

/-- E11: a read of a reserved offset returns 0 and records BUS. -/
theorem test_step_bus_read :
    let s := { idle 0 0 with turns := [rdTurn 0x30] }
    (after (step s) s).reads = [0] ∧ (after (step s) s).status = 0x6a := by decide

/-- B1 and B2, host first: a write while busy is dropped and recorded. -/
theorem test_step_busy_write :
    let s := { idle 0 0 with pend := some 0, turns := [wrTurn 0x10 5] }
    (after (step s) s).st = Block.ofHex 0 ∧ (after (step s) s).status = 0x5b := by decide

/-- R51: the third word of ST is column 2, low byte in row 0. -/
theorem test_step_write_st :
    let s := { idle 0 0 with turns := [wrTurn 0x18 0x61657262] }
    (after (step s) s).st = Block.ofHex 0x00000000000000006272656100000000 := by decide

/-- R241: STATUS is 0x1 after reset and 0x2 after generation. -/
theorem test_step_generation :
    State.reset.status = 0x1 ∧ (after (step State.reset) State.reset).status = 0x2 := by decide

/-- The host's placement of a word: the very next step runs it. -/
theorem test_withFetchWord :
    (after (step (State.reset.withFetchWord 32 0x00835709)) State.reset).gfr = 0xc1 := by decide

/-- R250: with polls to come the run has not ended; with none, and BUSY = 0, it has; while busy it has not. -/
theorem test_run_end :
    ((idle 0 0).withHost [] [.rd 0x04]).observation = none ∧ ((idle 0 0).withHost [.rdst] []).ended = false ∧
    (idle 0 0).ended = true ∧ ({ idle 0 0 with pend := some 0 } : State).ended = false := by decide

/-- The words of the plaintext in R44 unpack to its hex string. -/
theorem test_unpack_words : Block.ofWords 0x62656874 0x6b636f6c 0x61657262 0x7372656b
    = Block.ofHex 0x746865626c6f636b627265616b657273 := by decide

/-- R41: the window is 64 bytes from BASE. -/
theorem test_window_offset (off : Offset) : windowOffset (busAddress off) = some off := by
  unfold windowOffset busAddress
  have h := off.isLt
  rw [if_pos (by omega), Nat.add_sub_cancel_left, BitVec.ofNat_toNat, BitVec.setWidth_eq]

/-! ## Witnesses: states and operands that meet the hypotheses of each statement -/

/-- A state of the block with a loaded schedule for any key, any cipher state, pending word and turns to come. -/
def loaded (key st : Nat) (pend : Option Word) (turns : List Turn) : State :=
  { { State.reset.endGeneration with key := Block.ofHex key, st := Block.ofHex st }.loadSchedule with
    pend := pend, turns := turns }

/-- An idle or pending state of the block without a schedule. -/
def unloaded (pend : Option Word) (turns : List Turn) : State :=
  { State.reset.endGeneration with pend := pend, turns := turns }

theorem loaded_inv (key st : Nat) (pend : Option Word) (turns : List Turn) : (loaded key st pend turns).Inv := by
  constructor <;> simp [loaded, State.reset, State.endGeneration, State.loadSchedule, Config.rmax_ge]
  have := Config.rmax_ge; omega

theorem unloaded_inv (pend : Option Word) (turns : List Turn) : (unloaded pend turns).Inv := by
  constructor <;> simp [unloaded, State.reset, State.endGeneration, Config.rmax_ge]

/-- A state of the block while generation is in progress. -/
def generating : State := { State.reset with rounds := 3 }

theorem generating_inv : generating.Inv := by
  constructor <;> simp [generating, State.reset]
  have := Config.rmax_ge; omega

/-- DecodeIsTheMaskTest, LegalCommandHasOneEncoding: a word that decodes. -/
theorem witness_legal_word : ∃ w i, decode w = .ok i ∧ i.opcode.usesA = true ∧ i.opcode.usesB = false :=
  ⟨0x00005310, .sbox 0x53, by decide⟩

/-- LegalCommandHasOneEncoding: the clause on unused A. -/
theorem witness_legal_word_without_A : ∃ w i, decode w = .ok i ∧ i.opcode.usesA = false := ⟨0x00000030, .enc, by decide⟩

/-- AssemblerChecksOperands. -/
theorem witness_assembler : ∃ op ns i, (AsmLine.mk op ns).toInstr = .ok i := ⟨.gfpow, [0, 255], .gfpow 0 255, by decide⟩

/-- StepRunsDecodedCommand: with no turn left, and with a sequencer's turn. -/
theorem witness_step_runs :
    (unloaded (some 0x00005310) []).sequencerNext ∧ (unloaded (some 0x00005310) [.sequencer]).sequencerNext ∧
    (unloaded (some 0x00005310) []).gen = false ∧ (unloaded (some 0x00005310) []).pend = some 0x00005310 ∧
    decode 0x00005310 = .ok (.sbox 0x53) :=
  ⟨.inl rfl, .inr rfl, rfl, rfl, by decide⟩

/-- IllegalWordIsAborted: one word for each of the cases. -/
theorem witness_illegal_word :
    (unloaded (some 0x00000002) []).sequencerNext ∧ (unloaded (some 0x00000002) []).gen = false ∧
    (∀ w ∈ [0x00000002#32, 0x01000000, 0x00000120, 0x00010023], ∀ i, decode w ≠ .ok i) := by
  have none_of : ∀ w : Word, (decode w).toOption = none → ∀ i, decode w ≠ .ok i := by
    intro w h i hi
    rw [hi] at h
    cases h
  refine ⟨.inl rfl, rfl, fun w hw => none_of w ?_⟩
  simp only [List.mem_cons, List.not_mem_nil, or_false] at hw
  rcases hw with rfl | rfl | rfl | rfl <;> decide

/-- ReservedOpcodesAreIllegal: the ends of each range. -/
theorem witness_reserved_opcodes :
    (unloaded (some 0x00000032) []).sequencerNext ∧ (unloaded (some 0x00000032) []).gen = false ∧
    ∀ n ∈ [0x02, 0x07, 0x0d, 0x0f, 0x12, 0x17, 0x19, 0x1f, 0x2c, 0x2f, 0x32, 0xff],
      (fieldOp (BitVec.ofNat 32 n)).toNat = n :=
  ⟨.inl rfl, rfl, by decide⟩

/-- GenerationInstallsGeneratedTables: the reset state. -/
theorem witness_generation : State.reset.sequencerNext ∧ State.reset.gen = true ∧ State.reset.pend = none :=
  ⟨.inl rfl, rfl, rfl⟩

/-- IdleBlockHoldsEveryRegister. -/
theorem witness_idle : (unloaded none []).sequencerNext ∧ (unloaded none []).busy = false := ⟨.inl rfl, rfl⟩

/-- ResetTurnGivesResetValues: while a command is pending. -/
theorem witness_reset_turn : (unloaded (some 0x30) [.reset]).turns = .reset :: [] ∧ (unloaded (some 0x30) [.reset]).busy = true :=
  ⟨rfl, rfl⟩

/-- StepKeepsInvariant, RunsNeverStopUnderInvariant. -/
theorem witness_invariant_step :
    (loaded keyK 0 (some 0x30) []).Inv ∧ ∃ t, step (loaded keyK 0 (some 0x30) []) = .next t :=
  ⟨loaded_inv _ _ _ _, _, rfl⟩

/-- OnlyTheNamedEventsChangeKsv: KEYEXP sets it; writes of ROUNDS and of KEY3, and reset, clear it. -/
theorem witness_ksv_changes :
    (∃ t, step (unloaded (some 0x18) []) = .next t ∧ t.ksv ≠ (unloaded (some 0x18) []).ksv) ∧
    (∀ turn ∈ [wrTurn 0x08 1, wrTurn 0x08 10, wrTurn 0x20 0, wrTurn 0x2c 0, .reset],
      ∃ t, step (loaded keyK 0 none [turn]) = .next t ∧ t.ksv ≠ (loaded keyK 0 none [turn]).ksv) := by
  refine ⟨⟨_, rfl, by decide⟩, ?_⟩
  intro turn h
  simp only [List.mem_cons, List.not_mem_nil, or_false] at h
  rcases h with rfl | rfl | rfl | rfl | rfl <;> exact ⟨_, rfl, by decide⟩

/-- TablesChangeOnlyByGenerationOrReset: both clauses. -/
theorem witness_tables_change :
    (∃ t, step State.reset = .next t ∧ t.sbox ≠ State.reset.sbox) ∧
    (∃ t, step (unloaded none [.reset]) = .next t ∧ t.sbox ≠ (unloaded none [.reset]).sbox) :=
  ⟨⟨_, rfl, fun h => absurd (congrArg (Table.entry · 0) h) (by decide)⟩,
   ⟨_, rfl, fun h => absurd (congrArg (Table.entry · 0) h) (by decide)⟩⟩

/-- FirstErrorIsKept: an error kept, and CLRERR. -/
theorem witness_error_kept :
    (∃ t, step { unloaded (some 0x30) [] with err := true, errcode := 6 } = .next t ∧ t.errcode = 6) ∧
    (∃ t, step { unloaded (some 0x01) [] with err := true, errcode := 6 } = .next t ∧ t.err = false) :=
  ⟨⟨_, rfl, rfl⟩, ⟨_, rfl, rfl⟩⟩

/-- BusyIntervalsAndRunsEnd, its first two clauses: busy by a command, and by generation. -/
theorem witness_busy : generating.Inv ∧ generating.sequencerNext ∧ generating.busy = true ∧ (unloaded (some 0x30) []).Inv ∧ (unloaded (some 0x30) []).sequencerNext ∧
    (unloaded (some 0x30) []).busy = true := ⟨generating_inv, .inl rfl, rfl, unloaded_inv _ _, .inl rfl, rfl⟩

/-- BusyIntervalsAndRunsEnd, its other clauses: a host that stops, an ended run, and a host that polls forever. -/
theorem witness_runs_end :
    ((unloaded (some 0) []).withHost [.cmd .nop, .rdst] []).Inv ∧
    ((unloaded (some 0) []).withHost [.cmd .nop, .rdst] []).again = [] ∧
    (∃ o, (unloaded none [.sequencer]).observation = some o) ∧
    (∃ turn ∈ ((unloaded none []).withHost [] [.rd 0x04]).again, turn ≠ .sequencer) := by
  refine ⟨?_, rfl, ⟨_, rfl⟩, rdTurn 0x04, List.mem_singleton.2 rfl, by decide⟩
  have h := unloaded_inv (some 0) (hostProgram [.cmd .nop, .rdst])
  exact ⟨h.1, h.2, h.3, h.4, h.5, h.6, h.7, h.8, h.9⟩

/-- StaleRoundKeysAreUnobservable: with KSV = 0 a file of other round keys, and with KSV = 1 the same file. -/
theorem witness_stale_round_keys :
    (unloaded none []).Inv ∧ (unloaded none []).ksv = false ∧
    (List.replicate (Config.rmax + 1) (Block.ofHex 1)).length = (unloaded none []).rks.length ∧
    (loaded keyK 0 none []).Inv ∧ (loaded keyK 0 none []).ksv = true :=
  ⟨unloaded_inv _ _, rfl, by simp [unloaded, State.reset], loaded_inv _ _ _ _, rfl⟩

/-- TablesBeforeGenerationAreUnobservable: a state that generates, with tables of other bytes. -/
theorem witness_tables_unobservable :
    generating.Inv ∧ generating.sbrdy = false ∧ sboxTable ≠ generating.sbox ∧
    (unloaded none []).Inv ∧ (unloaded none []).sbrdy = true :=
  ⟨generating_inv, rfl, fun h => absurd (congrArg (Table.entry · 0) h) (by decide), unloaded_inv _ _, rfl⟩

/-- CommandsWriteOnlyTheirRegisters: a command that gives a next state, for every command. -/
theorem witness_exec_next (i : Instr) : ∃ s t, exec i s = .next t := by
  refine ⟨unloaded none [], ?_⟩
  cases i <;> exact ⟨_, rfl⟩

/-- BusErrorsAreRecordedAndDropped: the ends of each clause. -/
theorem witness_bus_error :
    (∀ p ∈ [(0x10#6, 1), (0x10, 2), (0x10, 8), (0x01, 4), (0x2d, 4), (0x30, 4), (0x3c, 4), (0x3f, 1)],
      p.2 ≠ 4 ∨ p.1.toNat % 4 ≠ 0 ∨ 0x2c < p.1.toNat) ∧
    (unloaded none [.read 0x30 4]).turns = .read 0x30 4 :: [] ∧
    (unloaded (some 0x30) [.write 0x12 4 5]).turns = .write 0x12 4 5 :: [] :=
  ⟨by decide, rfl, rfl⟩

/-- LegalReadsReturnTheRegister: idle; its first and last offsets. -/
theorem witness_legal_read :
    (unloaded none [.read 0x00 4]).turns = .read 0x00 4 :: [] ∧ (unloaded none [.read 0x2c 4]).turns = .read 0x2c 4 :: [] ∧
    (unloaded none [.read 0x0c 4]).busy = false ∧ (unloaded none [.read 0x1c 4]).busy = false := ⟨rfl, rfl, rfl, rfl⟩

/-- BusyReadsReturnAFreeValue, BusyWritesAreDropped: busy by a command, and by generation. -/
theorem witness_busy_access :
    (unloaded (some 0) [.read 0x0c 4]).turns = .read 0x0c 4 :: [] ∧ (unloaded (some 0) [.read 0x0c 4]).busy = true ∧
    ({ State.reset with turns := [.write 0x2c 4 1] } : State).turns = .write 0x2c 4 1 :: [] ∧
    ({ State.reset with turns := [.write 0x2c 4 1] } : State).busy = true := ⟨rfl, rfl, rfl, rfl⟩

/-- CommandWriteSetsPend, RoundsWriteIsChecked, StateWordWriteSetsFourBytes, KeyWordWriteSetsFourBytesAndClearsKsv,
ReadOnlyRegisterWritesAreIgnored: idle writes of each register. -/
theorem witness_idle_writes :
    (∀ off ∈ [0x00#6, 0x04, 0x08, 0x0c, 0x10, 0x1c, 0x20, 0x2c],
      (loaded keyK 0 none [.write off 4 1]).turns = .write off 4 1 :: [] ∧
      (loaded keyK 0 none [.write off 4 1]).busy = false) ∧
    BitVec.ofNat 6 (0x10 + 4 * (0 : Fin 4).val) = 0x10#6 ∧ BitVec.ofNat 6 (0x10 + 4 * (3 : Fin 4).val) = 0x1c#6 ∧
    BitVec.ofNat 6 (0x20 + 4 * (0 : Fin 4).val) = 0x20#6 ∧ BitVec.ofNat 6 (0x20 + 4 * (3 : Fin 4).val) = 0x2c#6 :=
  ⟨fun _ _ => ⟨rfl, rfl⟩, rfl, rfl, rfl, rfl⟩

/-- RoundsWriteIsChecked: 1 and RMAX are in range, 0 and RMAX+1 are not. -/
theorem witness_rounds_values :
    (1 ≤ (1#32).toNat ∧ (1#32).toNat ≤ Config.rmax) ∧
    (1 ≤ (BitVec.ofNat 32 Config.rmax).toNat ∧ (BitVec.ofNat 32 Config.rmax).toNat ≤ Config.rmax) ∧
    (0#32).toNat = 0 ∧ Config.rmax < (BitVec.ofNat 32 (Config.rmax + 1)).toNat := by
  have h1 := Config.rmax_ge
  have h2 := Config.rmax_le
  have e1 : (BitVec.ofNat 32 Config.rmax).toNat = Config.rmax := by
    rw [BitVec.toNat_ofNat]; exact Nat.mod_eq_of_lt (by omega)
  have e2 : (BitVec.ofNat 32 (Config.rmax + 1)).toNat = Config.rmax + 1 := by
    rw [BitVec.toNat_ofNat]; exact Nat.mod_eq_of_lt (by omega)
  rw [e1, e2]
  exact ⟨⟨by decide, by simpa using (by omega : 1 ≤ Config.rmax)⟩, ⟨by omega, le_refl _⟩, rfl, by omega⟩

/-- WrittenWordsReadBack. -/
theorem witness_write_then_read :
    (unloaded none [.write 0x2c 4 7, .read 0x2c 4]).turns = .write 0x2c 4 7 :: .read 0x2c 4 :: [] ∧
    (unloaded none [.write 0x2c 4 7, .read 0x2c 4]).busy = false := ⟨rfl, rfl⟩

/-- FieldCommandsWriteGfr, GfArithmeticLaws, GfPowIsReducedPower, GfInvIsTheUniqueInverse: nonzero bytes and exponents at
the ends of their ranges. -/
theorem witness_field_operands : (1#8 : Byte) ≠ 0 ∧ (0xff#8 : Byte) ≠ 0 ∧ 1 ≤ 1 % 255 ∧ 1 ≤ 254 % 255 := by decide

/-- TablesAreInversePermutations, TableReadCommandsWriteGfr, SboxCommandComputesAffineOfInverse, TransformsAreUndone,
EncThenDecRestoresSt. -/
theorem witness_tables_ready : (unloaded none []).Inv ∧ (unloaded none []).sbrdy = true := ⟨unloaded_inv _ _, rfl⟩

/-- KeyexpLoadsTheSchedule: the zero key and the source's key at ROUNDS = 10, and indexes at both ends of each range. -/
theorem witness_keyexp :
    (loaded 0 0 none []).Inv ∧ (loaded 0 0 none []).sbrdy = true ∧ (loaded 0 0 none []).key = Block.ofHex 0 ∧
    (loaded keyK 0 none []).Inv ∧ (loaded keyK 0 none []).key = Block.ofHex 0x2b7e151628aed2a6abf7158809cf4f3c ∧
    (loaded keyK 0 none []).rounds = 10 ∧ 10 ≤ (loaded keyK 0 none []).rounds ∧ (loaded keyK 0 none []).rounds < 11 :=
  ⟨loaded_inv _ _ _ _, rfl, rfl, loaded_inv _ _ _ _, rfl, rfl, by decide, by decide⟩

/-- ScheduleWordFunctions, ExpandFollowsTheRecurrence, KeyScheduleIsInvertible, DecryptInvertsEncrypt: round numbers at
the ends of their ranges, and keys that agree. -/
theorem witness_rounds_of_schedule :
    1 ≤ 1 ∧ 1 ≤ 255 ∧ 255 ≤ 255 ∧
    (expand sboxTable (Block.ofHex keyK) 1)[1]? = (expand sboxTable (Block.ofHex keyK) 1)[1]? := ⟨by decide, by decide, by decide, rfl⟩

/-- SubstitutionAndShiftCommandsWriteSt: a state of four equal columns, and a row and column with their bytes. -/
theorem witness_equal_columns :
    (Block.ofHex 0x01020304010203040102030401020304).c1 = (Block.ofHex 0x01020304010203040102030401020304).c0 ∧
    (Block.ofHex 0x01020304010203040102030401020304).c2 = (Block.ofHex 0x01020304010203040102030401020304).c0 ∧
    (Block.ofHex 0x01020304010203040102030401020304).c3 = (Block.ofHex 0x01020304010203040102030401020304).c0 ∧
    (15 : Fin 16).val = 3 + 4 * 3 ∧ (11 : Fin 16).val = 3 + 4 * ((3 + 3) % 4) ∧
    (3 : Fin 16).val = 3 + 4 * ((3 + 4 - 3) % 4) := by
  decide

/-- RoundKeyCommandsWriteSt, RoundKeyCommandsUseTheCurrentSchedule, InverseRoundsUndoRounds: a loaded state, with the
first and the last legal index. -/
theorem witness_round_key :
    (loaded keyK 0 none []).Inv ∧ (loaded keyK 0 none []).ksv = true ∧ (0x00#8).toNat ≤ (loaded keyK 0 none []).rounds ∧
    (0x0a#8).toNat ≤ (loaded keyK 0 none []).rounds ∧ (∃ rk, (loaded keyK 0 none []).rks[(0x0a#8).toNat]? = some rk) ∧
    (loaded keyK 0 none []).key = Block.ofHex 0x2b7e151628aed2a6abf7158809cf4f3c ∧
    (∀ st : Nat, (loaded keyK st none []).st = Block.ofHex st) :=
  ⟨loaded_inv _ _ _ _, rfl, by decide, by decide, ⟨_, rfl⟩, rfl, fun _ => rfl⟩

/-- RoundKeyCommandsAbort: no schedule; and the first index past ROUNDS. -/
theorem witness_round_key_errors :
    (unloaded none []).ksv = false ∧ (loaded keyK 0 none []).ksv = true ∧
    (loaded keyK 0 none []).rounds < (0x0b#8).toNat := ⟨rfl, rfl, by decide⟩

/-- BlockCommandsWriteStAndSchedule, SourceKnownAnswers: the source's key with both blocks, and the zero vector. -/
theorem witness_known_answers :
    (∀ key st : Nat, (loaded key st none []).Inv ∧ (loaded key st none []).sbrdy = true ∧
      (loaded key st none []).rounds = 10 ∧ (loaded key st none []).key = Block.ofHex key ∧
      (loaded key st none []).st = Block.ofHex st) :=
  fun _ _ => ⟨loaded_inv _ _ _ _, rfl, rfl, rfl, rfl⟩

/-- BlockCommandsEqualSingleRounds: a loaded state; and a KEYEXP that completes. -/
theorem witness_single_rounds :
    (loaded keyK 0 none []).Inv ∧ (loaded keyK 0 none []).ksv = true ∧
    ∃ t, exec .keyexp (unloaded none []) = .next t := ⟨loaded_inv _ _ _ _, rfl, _, rfl⟩

/-- ControlCommandsComplete: a NOP and a CLRERR with a bit above 7 set, and the state of the rule's example. -/
theorem witness_control :
    (unloaded (some 0x01000001) []).sequencerNext ∧ (unloaded (some 0x01000001) []).gen = false ∧
    fieldOp 0x01000001 = 0x01 ∧ (0x01000001#32) >>> 8 ≠ 0 ∧ fieldOp 0x00000100 = 0x00 ∧ (0x00000100#32) >>> 8 ≠ 0 ∧
    ({ loaded keyK 0 none [] with err := true, errcode := 1 } : State).pend = none ∧
    ({ loaded keyK 0 none [] with err := true, errcode := 1 } : State).status = 0x0000001e :=
  ⟨.inl rfl, rfl, by decide, by decide, by decide, by decide, rfl, by decide⟩

end Sys2Proof.Tests
end

section
/-!
SUPPORT. The host's accesses (20_memory.md): the bytes of a block whose bus word is written, the registers at the
offsets of the window, and one rule per outcome of an access; then the statements, settled from them.
-/

namespace Sys2Proof

/-! ## The bytes of a block whose bus word is written (R43, R51, R52) -/

theorem Block.col_setCol (b : Block) (c d : Fin 4) (x : Vec4) :
    (b.setCol c x).col d = if d = c then x else b.col d := by
  fin_cases c <;> fin_cases d <;> rfl

/-- Row `j` of a bus word is its byte `j`, the low byte first. -/
theorem Vec4.row_ofWord (w : Word) (j : Fin 4) : (Vec4.ofWord w).row j = w.extractLsb' (8 * j.val) 8 := by
  fin_cases j <;> rfl

/-- Byte `4k+j` of a block is row `j` of column `k` (R15). -/
theorem Block.byte_eq_row (b : Block) {i : Fin 16} {k j : Fin 4} (h : i.val = 4 * k.val + j.val) :
    b.byte i = (b.col k).row j := by
  have hrow : (⟨i.val % 4, by omega⟩ : Fin 4) = j := Fin.ext (by simp only; omega)
  have hcol : (⟨i.val / 4, by omega⟩ : Fin 4) = k := Fin.ext (by simp only; omega)
  rw [Block.byte, hrow, hcol, Block.at]

/-- The four bytes of the word written are the bytes of the value. -/
theorem Block.byte_setWord_same (b : Block) {i : Fin 16} {k j : Fin 4} (w : Word) (h : i.val = 4 * k.val + j.val) :
    (b.setWord k w).byte i = w.extractLsb' (8 * j.val) 8 := by
  rw [Block.byte_eq_row _ h, Block.setWord, Block.col_setCol, if_pos rfl, Vec4.row_ofWord]

/-- "The other 12 bytes are unchanged." -/
theorem Block.byte_setWord_of_ne (b : Block) {i : Fin 16} {k : Fin 4} (w : Word) (h : i.val / 4 ≠ k.val) :
    (b.setWord k w).byte i = b.byte i := by
  have hcol : (⟨i.val / 4, by omega⟩ : Fin 4) ≠ k := fun e => h (congrArg Fin.val e)
  rw [Block.byte, Block.at, Block.setWord, Block.col_setCol, if_neg hcol, Block.byte, Block.at]

/-! ## The registers at the offsets (R42, R45) -/

/-- The offsets without a register are the misaligned and the reserved ones. -/
theorem windowReg_eq_none_iff (off : Offset) : windowReg off = none ↔ off.toNat % 4 ≠ 0 ∨ 0x2c < off.toNat := by
  unfold windowReg
  split
  case h_13 => simp only [imp_false, true_iff] at *; omega
  all_goals simp only [reduceCtorEq, false_iff]; omega

/-- An access has no register exactly when it has the wrong width, is misaligned, or goes to a reserved offset. -/
theorem accessReg_eq_none_iff (off : Offset) (size : Nat) :
    accessReg off size = none ↔ size ≠ 4 ∨ off.toNat % 4 ≠ 0 ∨ 0x2c < off.toNat := by
  unfold accessReg
  split
  · next h => simp [windowReg_eq_none_iff, h]
  · next h => simp [h]

theorem windowReg_st (k : Fin 4) : windowReg (BitVec.ofNat 6 (0x10 + 4 * k.val)) = some (.st k) := by
  fin_cases k <;> rfl

theorem windowReg_key (k : Fin 4) : windowReg (BitVec.ofNat 6 (0x20 + 4 * k.val)) = some (.key k) := by
  fin_cases k <;> rfl

/-- The registers of CMD, ROUNDS, ST and KEY are those whose writes are dropped while busy. -/
theorem windowReg_busyProtected {off : Offset}
    (h : off ∈ [0x00#6, 0x08#6, 0x10#6, 0x14#6, 0x18#6, 0x1c#6, 0x20#6, 0x24#6, 0x28#6, 0x2c#6]) :
    ∃ r, windowReg off = some r ∧ r.busyProtected = true := by
  simp only [List.mem_cons, List.not_mem_nil, or_false] at h
  rcases h with rfl | rfl | rfl | rfl | rfl | rfl | rfl | rfl | rfl | rfl <;> exact ⟨_, rfl, rfl⟩

end Sys2Proof

namespace Sys2Proof.Machine

/-! ## One rule per outcome of an access -/

@[simp] theorem State.popTurn_busy (s : State) : s.popTurn.busy = s.busy := rfl

section Access

variable {s : State} {off : Offset} {size : Nat} {v : Word} {r : WindowReg} {rest : List Turn}

/-- A read that is a bus error (R46). -/
theorem step_read_of_busError (ht : s.turns = .read off size :: rest) (ha : accessReg off size = none) :
    step s = .next ((s.popTurn.recordError .bus).observe 0) := by
  rw [step_of_read ht, memRead, ha]

/-- A write that is a bus error (R46). -/
theorem step_write_of_busError (ht : s.turns = .write off size v :: rest) (ha : accessReg off size = none) :
    step s = .next (s.popTurn.recordError .bus) := by
  rw [step_of_write ht, memWrite, ha]

/-- A write that is dropped because the block is busy (R56). -/
theorem step_write_of_busy (ht : s.turns = .write off 4 v :: rest) (hr : windowReg off = some r)
    (hp : r.busyProtected = true) (hb : s.busy = true) : step s = .next (s.popTurn.recordError .busyWrite) := by
  have ha : accessReg off 4 = some r := (accessReg_eq_some_iff off 4 r).mpr ⟨rfl, hr⟩
  simp [step_of_write ht, memWrite, ha, hp, hb]

/-- A write that reaches its register (R49). -/
theorem step_write_of_accepted (ht : s.turns = .write off 4 v :: rest) (hr : windowReg off = some r)
    (h : r.busyProtected = false ∨ s.busy = false) : step s = .next (s.popTurn.writeReg r v) := by
  have ha : accessReg off 4 = some r := (accessReg_eq_some_iff off 4 r).mpr ⟨rfl, hr⟩
  rcases h with h | h <;> simp [step_of_write ht, memWrite, ha, h]

end Access

/-! ## The statements -/

/-- Settles O23: the access has no register, so it is recorded as BUS whatever BUSY is. -/
theorem busErrorsAreRecordedAndDropped : Obligations.BusErrorsAreRecordedAndDropped := by
  intro s off size v rest hbad
  have ha : accessReg off size = none := (accessReg_eq_none_iff off size).mpr hbad
  refine ⟨fun ht => ?_, fun ht => ?_⟩
  · rw [step_read_of_busError ht ha, State.recordError_eq_withError]; rfl
  · rw [step_write_of_busError ht ha, State.recordError_eq_withError]; rfl

/-- Settles O30: the write reaches ST_k, which is column `k` of ST. -/
theorem stateWordWriteSetsFourBytes : Obligations.StateWordWriteSetsFourBytes := by
  intro s k v rest ht hb
  exact ⟨s.popTurn.writeSt k v, step_write_of_accepted ht (windowReg_st k) (.inr hb), rfl,
    fun _ _ hi => Block.byte_setWord_same s.st v hi, fun _ hi => Block.byte_setWord_of_ne s.st v hi⟩

/-- Settles O31: the write reaches KEY_k, which is column `k` of KEY, and clears KSV. -/
theorem keyWordWriteSetsFourBytesAndClearsKsv : Obligations.KeyWordWriteSetsFourBytesAndClearsKsv := by
  intro s k v rest ht hb
  exact ⟨s.popTurn.writeKey k v, step_write_of_accepted ht (windowReg_key k) (.inr hb), rfl,
    fun _ _ hi => Block.byte_setWord_same s.key v hi, fun _ hi => Block.byte_setWord_of_ne s.key v hi⟩

/-- Settles O27: each of the ten offsets holds a register that is protected while busy. -/
theorem busyWritesAreDropped : Obligations.BusyWritesAreDropped := by
  intro s off v rest ht hb hoff
  obtain ⟨r, hr, hp⟩ := windowReg_busyProtected hoff
  rw [step_write_of_busy ht hr hp hb, State.recordError_eq_withError]; rfl

/-- Settles O28: CMD takes the word without decoding it, and a word in PEND makes BUSY = 1. -/
theorem commandWriteSetsPend : Obligations.CommandWriteSetsPend := by
  intro s w rest ht hb
  have hbusy : (s.popTurn.issue w).busy = true := by simp [State.busy]
  exact ⟨s.popTurn.issue w, step_write_of_accepted ht rfl (.inr hb), rfl, hbusy⟩

/-- Settles O29: the write reaches ROUNDS, whose range check separates the two clauses. -/
theorem roundsWriteIsChecked : Obligations.RoundsWriteIsChecked := by
  intro s v rest ht hb
  have hstep : step s = .next (s.popTurn.writeRounds v) := step_write_of_accepted ht rfl (.inr hb)
  refine ⟨fun hlow hhigh => ?_, fun hbad => ?_⟩
  · rw [hstep, State.writeRounds_of_legal _ _ ⟨hlow, hhigh⟩]
  · rw [hstep, State.writeRounds_of_illegal _ _ (by omega), State.recordError_eq_withError]; rfl

/-- Settles O32: STATUS and GFR are not protected while busy, and a write that reaches them does nothing. -/
theorem readOnlyRegisterWritesAreIgnored : Obligations.ReadOnlyRegisterWritesAreIgnored := by
  intro s off v rest ht hoff
  rcases hoff with rfl | rfl
  · exact step_write_of_accepted (r := .status) ht rfl (.inl rfl)
  · exact step_write_of_accepted (r := .gfr) ht rfl (.inl rfl)

/-- Settles O34: the eight words are computed. -/
theorem packingExample : Obligations.PackingExample := by
  unfold Obligations.PackingExample
  decide

end Sys2Proof.Machine
end

section
/-!
SUPPORT. The encoding (30_encoding.md): the word of four fields, the operation and the operands of a decoded command,
when a word decodes, said once by the fields (R75) and once by the encoding (R73); then the statements, settled from them.
-/

namespace Sys2Proof

/-! ## The word of four fields (R71) -/

section Fields

variable (r b a o : Byte)

@[simp] theorem fieldOp_commandWord : fieldOp (commandWord r b a o) = o :=
  (Laws.EncodeLayout.fields_commandWord r b a o).1

@[simp] theorem fieldA_commandWord : fieldA (commandWord r b a o) = a :=
  (Laws.EncodeLayout.fields_commandWord r b a o).2.1

@[simp] theorem fieldB_commandWord : fieldB (commandWord r b a o) = b :=
  (Laws.EncodeLayout.fields_commandWord r b a o).2.2.1

@[simp] theorem fieldRsv_commandWord : fieldRsv (commandWord r b a o) = r :=
  (Laws.EncodeLayout.fields_commandWord r b a o).2.2.2

end Fields

/-- A word is made of its four fields. -/
theorem commandWord_fields (w : Word) : commandWord (fieldRsv w) (fieldB w) (fieldA w) (fieldOp w) = w := by
  have hRB : fieldRsv w ++ fieldB w = w.extractLsb' 16 16 := BitVec.extractLsb'_append_extractLsb'_eq_extractLsb' rfl
  have hRBA : w.extractLsb' 16 16 ++ fieldA w = w.extractLsb' 8 24 :=
    BitVec.extractLsb'_append_extractLsb'_eq_extractLsb' rfl
  rw [commandWord, hRB, hRBA]
  exact BitVec.extractLsb'_append_extractLsb' (w := 24) (len := 8) (x := w)

theorem commandWord_inj {r b a o r' b' a' o' : Byte} :
    commandWord r b a o = commandWord r' b' a' o' ↔ r = r' ∧ b = b' ∧ a = a' ∧ o = o' := by
  refine ⟨fun h => ?_, by rintro ⟨rfl, rfl, rfl, rfl⟩; rfl⟩
  exact ⟨by simpa using congrArg fieldRsv h, by simpa using congrArg fieldB h,
    by simpa using congrArg fieldA h, by simpa using congrArg fieldOp h⟩

theorem commandWord_and (r b a o r' b' a' o' : Byte) :
    commandWord r b a o &&& commandWord r' b' a' o' = commandWord (r &&& r') (b &&& b') (a &&& a') (o &&& o') := by
  have hRB : (r ++ b) &&& (r' ++ b') = (r &&& r') ++ (b &&& b') := BitVec.and_append
  have hRBA : (r ++ b ++ a) &&& (r' ++ b' ++ a') = (r &&& r') ++ (b &&& b') ++ (a &&& a') := by
    rw [BitVec.and_append, hRB]
  exact BitVec.and_append.trans (congrArg (· ++ (o &&& o')) hRBA)

/-! ## Operations and operands (R74) -/

@[simp] theorem Opcode.opcode_instr (op : Opcode) (a b : Byte) : (op.instr a b).opcode = op := by
  cases op <;> rfl

theorem Opcode.operandA_instr (op : Opcode) (a b : Byte) : (op.instr a b).operandA = if op.usesA then a else 0 := by
  cases op <;> rfl

theorem Opcode.operandB_instr (op : Opcode) (a b : Byte) : (op.instr a b).operandB = if op.usesB then b else 0 := by
  cases op <;> rfl

/-- Leaving an unused field out loses nothing when that field is 0. -/
theorem operand_eq_field {used : Bool} {x : Byte} (h : used = false → x = 0) : (if used then x else 0) = x := by
  cases used
  · exact (h rfl).symm
  · rfl

/-- A number names an operation exactly when it is the operation's code. -/
theorem Opcode.ofCode_eq_some_iff (c : Byte) (op : Opcode) : Opcode.ofCode c = some op ↔ op.code = c := by
  constructor
  · unfold Opcode.ofCode
    split
    case h_25 => nofun
    all_goals
      next hc => rintro ⟨⟩; exact BitVec.eq_of_toNat_eq hc.symm
  · rintro rfl
    cases op <;> rfl

/-- The fields of a command's word, for every command. -/
theorem encode_layout : ∀ i : Instr, Laws.EncodeLayout.Statement i
  | .nop => Laws.EncodeLayout.nop
  | .clrerr => Laws.EncodeLayout.clrerr
  | .gfadd a b => Laws.EncodeLayout.gfadd a b
  | .gfmul a b => Laws.EncodeLayout.gfmul a b
  | .gfinv a => Laws.EncodeLayout.gfinv a
  | .gfpow a e => Laws.EncodeLayout.gfpow a e
  | .gfaff a => Laws.EncodeLayout.gfaff a
  | .sbox a => Laws.EncodeLayout.sbox a
  | .isbox a => Laws.EncodeLayout.isbox a
  | .keyexp => Laws.EncodeLayout.keyexp
  | .subbytes => Laws.EncodeLayout.subbytes
  | .shiftrows => Laws.EncodeLayout.shiftrows
  | .mixcolumns => Laws.EncodeLayout.mixcolumns
  | .addrk k => Laws.EncodeLayout.addrk k
  | .invsubbytes => Laws.EncodeLayout.invsubbytes
  | .invshiftrows => Laws.EncodeLayout.invshiftrows
  | .invmixcolumns => Laws.EncodeLayout.invmixcolumns
  | .addkey => Laws.EncodeLayout.addkey
  | .round k => Laws.EncodeLayout.round k
  | .finalround k => Laws.EncodeLayout.finalround k
  | .invround k => Laws.EncodeLayout.invround k
  | .invfinalround k => Laws.EncodeLayout.invfinalround k
  | .enc => Laws.EncodeLayout.enc
  | .dec => Laws.EncodeLayout.dec

/-! ## When a word decodes (R73, R75) -/

/-- `w` is a legal word of operation `op`: OP is its code, and RSV and the fields it does not use are 0 (R73, R75). -/
def Opcode.LegalWord (op : Opcode) (w : Word) : Prop :=
  op.code = fieldOp w ∧ fieldRsv w = 0 ∧ (op.usesA = false → fieldA w = 0) ∧ (op.usesB = false → fieldB w = 0)

/-- A word decodes to a command exactly when it is a legal word of an operation, and then to that operation with the
word's A and B. -/
theorem decode_eq_ok_iff (w : Word) (i : Instr) :
    decode w = .ok i ↔ ∃ op : Opcode, op.LegalWord w ∧ i = op.instr (fieldA w) (fieldB w) := by
  unfold decode
  cases hop : Opcode.ofCode (fieldOp w) with
  | none =>
    have hno : ∀ op : Opcode, op.code ≠ fieldOp w := fun op h => by
      simp [(Opcode.ofCode_eq_some_iff _ op).mpr h] at hop
    simp [Opcode.LegalWord, hno]
  | some op =>
    have hcode : ∀ op' : Opcode, op'.code = fieldOp w ↔ op = op' := fun op' => by
      rw [← Opcode.ofCode_eq_some_iff, hop, Option.some.injEq]
    simp only [Opcode.LegalWord, hcode, exists_eq_left', and_assoc]
    split_ifs with hrsv ha hb
    · exact iff_of_false nofun fun ⟨h, _⟩ => hrsv h
    · exact iff_of_false nofun fun ⟨_, hA, _⟩ => ha.2 (hA ha.1)
    · exact iff_of_false nofun fun ⟨_, _, hB, _⟩ => hb.2 (hB hb.1)
    · have hA : op.usesA = false → fieldA w = 0 := fun h => by_contra fun h' => ha ⟨h, h'⟩
      have hB : op.usesB = false → fieldB w = 0 := fun h => by_contra fun h' => hb ⟨h, h'⟩
      rw [Except.ok.injEq, eq_comm]
      exact ⟨fun h => ⟨not_not.mp hrsv, hA, hB, h⟩, fun ⟨_, _, _, h⟩ => h⟩

/-- The operation that a word decodes to is the one it is a legal word of. -/
theorem decode_opcode_iff (w : Word) (op : Opcode) :
    (∃ i, decode w = .ok i ∧ i.opcode = op) ↔ op.LegalWord w := by
  simp only [decode_eq_ok_iff]
  constructor
  · rintro ⟨_, ⟨op', hlegal, rfl⟩, rfl⟩
    rwa [Opcode.opcode_instr]
  · exact fun hlegal => ⟨_, ⟨op, hlegal, rfl⟩, Opcode.opcode_instr ..⟩

/-- The command of a legal word is encoded as that word. -/
theorem encode_instr_of_legalWord {op : Opcode} {w : Word} (h : op.LegalWord w) :
    encode (op.instr (fieldA w) (fieldB w)) = w := by
  obtain ⟨hcode, hrsv, ha, hb⟩ := h
  rw [encode, Opcode.opcode_instr, Opcode.operandA_instr, Opcode.operandB_instr, operand_eq_field ha,
    operand_eq_field hb, hcode, ← hrsv, commandWord_fields]

/-- The encoding of a command is a legal word of the command's operation. -/
theorem legalWord_encode (i : Instr) : i.opcode.LegalWord (encode i) := by
  obtain ⟨hop, hA, hB, hrsv, -, -, ha, hb⟩ := encode_layout i
  exact ⟨hop.symm, hrsv, hA ▸ ha, hB ▸ hb⟩

theorem decode_encode (i : Instr) : decode (encode i) = .ok i := by
  obtain ⟨-, hA, hB, -, -, hi, -, -⟩ := encode_layout i
  exact (decode_eq_ok_iff _ _).mpr ⟨i.opcode, legalWord_encode i, by rw [hA, hB, hi]⟩

/-- A word decodes to a command exactly when it is the command's encoding. -/
theorem decode_eq_ok_iff_eq_encode (w : Word) (i : Instr) : decode w = .ok i ↔ w = encode i := by
  refine ⟨fun h => ?_, fun h => h ▸ decode_encode i⟩
  obtain ⟨op, hlegal, rfl⟩ := (decode_eq_ok_iff w i).mp h
  exact (encode_instr_of_legalWord hlegal).symm

/-! ## The mask test (R75) -/

theorem Opcode.mask_eq_commandWord (op : Opcode) :
    op.mask = commandWord 0xff (if op.usesB then 0x00 else 0xff) (if op.usesA then 0x00 else 0xff) 0xff := by
  cases op <;> rfl

theorem Opcode.pattern_eq_commandWord (op : Opcode) : op.pattern = commandWord 0 0 0 op.code := by
  cases op <;> rfl

theorem and_ones (x : Byte) : x &&& 0xff = x := BitVec.and_allOnes

/-- The mask of an operand field tests that the field is 0, unless the field is used. -/
theorem and_operandMask_eq_zero_iff (used : Bool) (x : Byte) :
    (x &&& if used then 0x00 else 0xff) = 0 ↔ (used = false → x = 0) := by
  cases used
  · rw [if_neg Bool.false_ne_true, and_ones, forall_prop_of_true rfl]
  · simp

/-- The mask test of a row holds of exactly the legal words of its operation. -/
theorem Opcode.and_mask_eq_pattern_iff (w : Word) (op : Opcode) : w &&& op.mask = op.pattern ↔ op.LegalWord w := by
  rw [Opcode.mask_eq_commandWord, Opcode.pattern_eq_commandWord]
  nth_rw 1 [← commandWord_fields w]
  rw [commandWord_and, commandWord_inj, and_operandMask_eq_zero_iff, and_operandMask_eq_zero_iff, and_ones, and_ones,
    Opcode.LegalWord, eq_comm (a := op.code)]
  tauto

/-! ## The statements -/

/-- Settles O2: a word that decodes is a legal word of its command's operation, and the one word of a command is its
encoding. -/
theorem legalCommandHasOneEncoding : Obligations.LegalCommandHasOneEncoding := by
  refine ⟨fun w i h => ?_, fun i => ⟨encode i, decode_encode i, fun w h => (decode_eq_ok_iff_eq_encode w i).mp h⟩⟩
  exact ((decode_opcode_iff w i.opcode).mp ⟨i, h, rfl⟩).2

/-- Settles O3: both the decoder and the mask test accept exactly the legal words of the operation. -/
theorem decodeIsTheMaskTest : Obligations.DecodeIsTheMaskTest := by
  refine ⟨fun w op => ?_, fun w i h => ?_, fun op => ⟨op.mask_eq_commandWord, rfl⟩⟩
  · rw [decode_opcode_iff, Opcode.and_mask_eq_pattern_iff]
  · obtain ⟨op, -, rfl⟩ := (decode_eq_ok_iff w i).mp h
    rw [Opcode.opcode_instr]

/-- Settles O4: the fifteen words are decoded. -/
theorem specExampleWordsDecode : Obligations.SpecExampleWordsDecode := by
  unfold Obligations.SpecExampleWordsDecode
  decide

end Sys2Proof
end

section
/-!
SUPPORT. Field arithmetic (41_gf_arith.md): gf_mul is linear in each operand, so that a law of it need only be checked at
the powers of x; the ring laws; powers and inverses, which rest on squaring being linear too; the affine step bit by bit;
then the statements, settled from them.
-/

namespace Sys2Proof

/-! ## gf_mul is linear in each operand (R102) -/

/-- `f` takes sums (R101) to sums. -/
def XorLinear {m n : Nat} (f : BitVec m → BitVec n) : Prop := ∀ x y, f (x ^^^ y) = f x ^^^ f y

theorem XorLinear.apply_zero {m n : Nat} {f : BitVec m → BitVec n} (hf : XorLinear f) : f 0 = 0 := by
  have h := hf 0 0
  rwa [BitVec.xor_self, BitVec.xor_self] at h

theorem XorLinear.comp {l m n : Nat} {f : BitVec m → BitVec n} {g : BitVec l → BitVec m} (hf : XorLinear f)
    (hg : XorLinear g) : XorLinear fun x => f (g x) :=
  fun x y => (congrArg f (hg x y)).trans (hf _ _)

theorem XorLinear.iterate {n : Nat} {f : BitVec n → BitVec n} (hf : XorLinear f) (k : Nat) : XorLinear f^[k] := by
  induction k with
  | zero => exact fun _ _ => rfl
  | succ k ih => exact ih.comp hf

theorem xor_xor_xor_comm {n : Nat} (a b c d : BitVec n) : (a ^^^ b) ^^^ (c ^^^ d) = (a ^^^ c) ^^^ (b ^^^ d) := by
  ac_rfl

/-- A loop whose turns split over a sum splits over it. -/
theorem foldl_xor {n : Nat} {ι : Type} {f g h : BitVec n → ι → BitVec n}
    (turn : ∀ p q i, f (p ^^^ q) i = g p i ^^^ h q i) (l : List ι) :
    ∀ p q, l.foldl f (p ^^^ q) = l.foldl g p ^^^ l.foldl h q := by
  induction l with
  | nil => exact fun _ _ => rfl
  | cons i l ih => intro p q; rw [List.foldl_cons, turn, ih]; rfl

/-- A conditional addition splits over a sum of the accumulators with a sum of the conditions. -/
theorem ite_xor_split_condition {n : Nat} (b c : Bool) (p q v : BitVec n) :
    (if b ^^ c then (p ^^^ q) ^^^ v else p ^^^ q) = (if b then p ^^^ v else p) ^^^ (if c then q ^^^ v else q) := by
  cases b <;> cases c
  · rfl
  · exact BitVec.xor_assoc ..
  · exact (by ac_rfl : p ^^^ q ^^^ v = p ^^^ v ^^^ q)
  · simp [xor_xor_xor_comm p v]

theorem xorLinear_gfProduct_left (b : Byte) : XorLinear (gfProduct · b) := by
  intro x y
  refine foldl_xor (fun p q i => ?_) _ 0 0
  cases b.getLsbD i
  · rfl
  · simp only [if_true, BitVec.truncate_eq_setWidth, BitVec.setWidth_xor, BitVec.shiftLeft_xor_distrib]
    exact xor_xor_xor_comm ..

theorem xorLinear_gfProduct_right (a : Byte) : XorLinear (gfProduct a) := by
  intro x y
  refine foldl_xor (fun p q i => ?_) _ 0 0
  rw [BitVec.getLsbD_xor, ite_xor_split_condition]

theorem xorLinear_gfReduce : XorLinear gfReduce := by
  intro x y
  refine (congrArg (BitVec.extractLsb' 0 8) (foldl_xor (fun p q d => ?_) _ x y)).trans BitVec.extractLsb'_xor
  rw [BitVec.getLsbD_xor, ite_xor_split_condition]

/-- gf_mul distributes over gf_add (R105). -/
theorem gfMul_xor (a x y : Byte) : gfMul a (x ^^^ y) = gfMul a x ^^^ gfMul a y :=
  xorLinear_gfReduce.comp (xorLinear_gfProduct_right a) x y

theorem xor_gfMul (x y b : Byte) : gfMul (x ^^^ y) b = gfMul x b ^^^ gfMul y b :=
  xorLinear_gfReduce.comp (xorLinear_gfProduct_left b) x y

theorem xorLinear_gfMul_right (a : Byte) : XorLinear (gfMul a) := gfMul_xor a

theorem xorLinear_gfMul_left (b : Byte) : XorLinear (gfMul · b) := fun x y => xor_gfMul x y b

theorem gfMul_zero (a : Byte) : gfMul a 0 = 0 := (xorLinear_gfMul_right a).apply_zero

theorem gfMul_zero_left (a : Byte) : gfMul 0 a = 0 := (xorLinear_gfMul_left a).apply_zero

/-! ## Linear functions are given by their values at the powers of x -/

/-- Multiplication by x, the doubling formula of R105. -/
def xtime (a : Byte) : Byte := (a <<< 1) ^^^ (if a.getLsbD 7 then 0x1b else 0x00)

/-- The byte x^i, whose one bit is bit i (R14). -/
def xPow (i : Fin 8) : Byte := xtime^[i] 1

/-- The sum of the values of `c` at the bits of `x`. -/
def sumAtBits (x : Byte) (c : Fin 8 → Byte) : Byte :=
  (List.finRange 8).foldl (fun p (i : Fin 8) => if x.getLsbD i then p ^^^ c i else p) 0

theorem sumAtBits_xPow (x : Byte) : sumAtBits x xPow = x := by
  revert x; decide +kernel

theorem XorLinear.eq_sumAtBits {f : Byte → Byte} (hf : XorLinear f) (x : Byte) :
    f x = sumAtBits x fun i => f (xPow i) := by
  have hfold : (List.finRange 8).foldl (fun p (i : Fin 8) => if x.getLsbD i then p ^^^ f (xPow i) else p) (f 0) =
      f (sumAtBits x xPow) := List.foldl_hom f fun p i => by rw [apply_ite f, hf]
  rw [← sumAtBits_xPow x, ← hfold, hf.apply_zero, sumAtBits_xPow, sumAtBits]

theorem XorLinear.ext {f g : Byte → Byte} (hf : XorLinear f) (hg : XorLinear g) (h : ∀ i, f (xPow i) = g (xPow i))
    (x : Byte) : f x = g x := by
  rw [hf.eq_sumAtBits, hg.eq_sumAtBits]
  simp only [h]

/-! ## The ring laws (R105) -/

theorem xorLinear_xtime : XorLinear xtime := by
  intro x y
  rw [xtime, BitVec.shiftLeft_xor_distrib, BitVec.getLsbD_xor, xtime, xtime, xor_xor_xor_comm]
  cases x.getLsbD 7 <;> cases y.getLsbD 7 <;> rfl

theorem gfMul_one_left (a : Byte) : gfMul 1 a = a :=
  (xorLinear_gfMul_right 1).ext (g := id) (fun _ _ => rfl) (by decide +kernel) a

/-- Both sides are linear in `a` and in `b`, so the law is checked at the 64 pairs of powers of x. -/
theorem gfMul_xtime_left (a b : Byte) : gfMul (xtime a) b = xtime (gfMul a b) := by
  refine ((xorLinear_gfMul_left b).comp xorLinear_xtime).ext
    (xorLinear_xtime.comp (xorLinear_gfMul_left b)) (fun i => ?_) a
  refine (xorLinear_gfMul_right _).ext (xorLinear_xtime.comp (xorLinear_gfMul_right _)) (fun j => ?_) b
  revert i j; decide +kernel

theorem iterate_xtime_gfMul (n : Nat) (a b : Byte) : gfMul (xtime^[n] a) b = xtime^[n] (gfMul a b) :=
  (show Function.Semiconj (gfMul · b) xtime xtime from fun a => gfMul_xtime_left a b).iterate_right n a

/-- Multiplying by x^i is multiplying by x, i times. -/
theorem xPow_gfMul (i : Fin 8) (b : Byte) : gfMul (xPow i) b = xtime^[i] b := by
  rw [xPow, iterate_xtime_gfMul, gfMul_one_left]

theorem gfMul_assoc (a b c : Byte) : gfMul (gfMul a b) c = gfMul a (gfMul b c) := by
  refine ((xorLinear_gfMul_left c).comp (xorLinear_gfMul_left b)).ext (xorLinear_gfMul_left _) (fun i => ?_) a
  rw [xPow_gfMul, xPow_gfMul, iterate_xtime_gfMul]

theorem gfMul_comm (a b : Byte) : gfMul a b = gfMul b a := by
  refine (xorLinear_gfMul_left b).ext (xorLinear_gfMul_right b) (fun i => ?_) a
  refine (xorLinear_gfMul_right _).ext (xorLinear_gfMul_left _) (fun j => ?_) b
  rw [xPow_gfMul, xPow_gfMul, xPow, xPow, ← Function.iterate_add_apply, ← Function.iterate_add_apply, add_comm]

theorem gfMul_one (a : Byte) : gfMul a 1 = a := by rw [gfMul_comm, gfMul_one_left]

theorem gfMul_two (a : Byte) : gfMul a 0x02 = xtime a := by
  rw [gfMul_comm, show (0x02 : Byte) = xtime 1 from rfl, gfMul_xtime_left, gfMul_one_left]

/-! ## Squaring -/

/-- `gf_mul(a, a)`. -/
def gfSquare (a : Byte) : Byte := gfMul a a

/-- Squaring is linear (the Frobenius map), because the two mixed products are equal. -/
theorem xorLinear_gfSquare : XorLinear gfSquare := by
  intro x y
  calc gfMul (x ^^^ y) (x ^^^ y)
    _ = gfMul x x ^^^ gfMul x y ^^^ (gfMul x y ^^^ gfMul y y) := by
      rw [xor_gfMul, gfMul_xor, gfMul_xor, gfMul_comm y x]
    _ = gfSquare x ^^^ gfSquare y := by
      rw [BitVec.xor_assoc, ← BitVec.xor_assoc (gfMul x y), BitVec.xor_self, BitVec.zero_xor]; rfl

/-- Every byte is its own 256th power: it is enough to square the powers of x eight times. -/
theorem iterate_gfSquare_eight (x : Byte) : gfSquare^[8] x = x :=
  (xorLinear_gfSquare.iterate 8).ext (g := id) (fun _ _ => rfl) (by decide +kernel) x

theorem eq_zero_or_one_of_gfSquare_eq (e : Byte) : gfSquare e = e → e = 0 ∨ e = 1 := by
  rw [xorLinear_gfSquare.eq_sumAtBits]
  revert e; decide +kernel

/-! ## Powers (R103) -/

theorem gfMul_gfSquare (s : Byte) : gfMul (gfSquare s) = (gfMul s)^[2] := funext (gfMul_assoc s s)

/-- Multiplying by s^n is multiplying by s, n times. -/
theorem iterate_gfMul_one_gfMul (s : Byte) (n : Nat) (b : Byte) : gfMul ((gfMul s)^[n] 1) b = (gfMul s)^[n] b := by
  have h : Function.Semiconj (gfMul · b) (gfMul s) (gfMul s) := fun a => gfMul_assoc s a b
  rw [(h.iterate_right n).eq, gfMul_one_left]

/-- With fuel enough, the loop multiplies `r` by s^n: the low bit of `n` is one factor s, and the rest are factors s^2. -/
theorem gfPowLoop_eq_iterate (fuel : Nat) :
    ∀ (r s : Byte) (n : Nat), n < 2 ^ fuel → gfPowLoop fuel r s n = (gfMul s)^[n] r := by
  induction fuel with
  | zero =>
    intro r s n hn
    obtain rfl : n = 0 := by omega
    rfl
  | succ fuel ih =>
    intro r s n hn
    have hlow : (if n % 2 = 1 then gfMul r s else r) = (gfMul s)^[n % 2] r := by
      rcases Nat.mod_two_eq_zero_or_one n with h | h <;> simp [h, gfMul_comm r s]
    rw [gfPowLoop]
    split
    · next h => rw [h]; rfl
    · rw [ih _ _ _ (by omega), hlow, ← gfSquare, gfMul_gfSquare, ← Function.iterate_mul,
        ← Function.iterate_add_apply, Nat.div_add_mod]

theorem gfPow_eq_iterate (base : Byte) (e : Nat) : gfPow base e = (gfMul base)^[e % 255] 1 :=
  gfPowLoop_eq_iterate 8 1 base _ (by omega)

theorem gfPow_zero (base : Byte) : gfPow base 0 = 1 := gfPow_eq_iterate base 0

theorem gfPow_255 (base : Byte) : gfPow base 255 = 1 := gfPow_eq_iterate base 255

theorem gfPow_base_zero {e : Nat} (h : 1 ≤ e % 255) : gfPow 0 e = 0 := by
  obtain ⟨k, hk⟩ := Nat.exists_eq_add_of_le' h
  rw [gfPow_eq_iterate, hk, Function.iterate_succ_apply', gfMul_zero_left]

theorem iterate_gfMul_two_pow (x : Byte) (k : Nat) : (gfMul x)^[2 ^ k] = gfMul (gfSquare^[k] x) := by
  induction k generalizing x with
  | zero => rfl
  | succ k ih => rw [pow_succ', Function.iterate_mul, ← gfMul_gfSquare, ih, Function.iterate_succ_apply]

theorem iterate_gfMul_256 (x : Byte) : (gfMul x)^[256] 1 = x := by
  rw [show 256 = 2 ^ 8 from rfl, iterate_gfMul_two_pow, iterate_gfSquare_eight, gfMul_one]

/-- The 255th power of a byte is its own square: x^510 = x^254 * x^256 = x^254 * x. -/
theorem gfSquare_iterate_gfMul_255 (x : Byte) : gfSquare ((gfMul x)^[255] 1) = (gfMul x)^[255] 1 := by
  calc gfSquare ((gfMul x)^[255] 1)
    _ = (gfMul x)^[254] ((gfMul x)^[256] 1) := by
      rw [gfSquare, iterate_gfMul_one_gfMul, ← Function.iterate_add_apply, ← Function.iterate_add_apply]
    _ = (gfMul x)^[254] (gfMul x 1) := by rw [iterate_gfMul_256, gfMul_one]
    _ = (gfMul x)^[255] 1 := (Function.iterate_succ_apply ..).symm

/-- The 255th power is 0 or 1; were it 0, the 256th, which is `x`, would be 0. -/
theorem iterate_gfMul_255 {x : Byte} (hx : x ≠ 0) : (gfMul x)^[255] 1 = 1 := by
  rcases eq_zero_or_one_of_gfSquare_eq _ (gfSquare_iterate_gfMul_255 x) with h0 | h1
  · have h : (gfMul x)^[256] 1 = 0 := by rw [Function.iterate_succ_apply', h0, gfMul_zero]
    exact absurd ((iterate_gfMul_256 x).symm.trans h) hx
  · exact h1

/-! ## Inverses (R104) -/

theorem gfInv_zero : gfInv 0 = 0 := gfPow_base_zero (by decide)

theorem gfMul_gfInv {a : Byte} (ha : a ≠ 0) : gfMul a (gfInv a) = 1 := by
  rw [gfInv, gfPow_eq_iterate, ← Function.iterate_succ_apply' (gfMul a)]
  exact iterate_gfMul_255 ha

theorem gfInv_eq_of_gfMul_eq_one {a x : Byte} (h : gfMul a x = 1) : gfInv a = x := by
  have ha : a ≠ 0 := by
    rintro rfl
    exact absurd h (by rw [gfMul_zero_left]; decide)
  calc gfInv a
    _ = gfMul (gfMul (gfInv a) a) x := by rw [gfMul_assoc, h, gfMul_one]
    _ = x := by rw [gfMul_comm _ a, gfMul_gfInv ha, gfMul_one_left]

theorem gfInv_gfInv (a : Byte) : gfInv (gfInv a) = a := by
  by_cases ha : a = 0
  · rw [ha, gfInv_zero, gfInv_zero]
  · exact gfInv_eq_of_gfMul_eq_one (by rw [gfMul_comm, gfMul_gfInv ha])

/-! ## The affine step (R107, R108) -/

theorem affMatrix_eq :
    affMatrix = [[1, 0, 0, 0, 1, 1, 1, 1], [1, 1, 0, 0, 0, 1, 1, 1], [1, 1, 1, 0, 0, 0, 1, 1], [1, 1, 1, 1, 0, 0, 0, 1],
    [1, 1, 1, 1, 1, 0, 0, 0], [0, 1, 1, 1, 1, 1, 0, 0], [0, 0, 1, 1, 1, 1, 1, 0], [0, 0, 0, 1, 1, 1, 1, 1]] := by
  decide

/-- The rows of AFF as sums. -/
theorem matVec_affMatrix (v0 v1 v2 v3 v4 v5 v6 v7 : Byte) : matVec affMatrix [v0, v1, v2, v3, v4, v5, v6, v7] =
    [v0 ^^^ v4 ^^^ v5 ^^^ v6 ^^^ v7, v0 ^^^ v1 ^^^ v5 ^^^ v6 ^^^ v7, v0 ^^^ v1 ^^^ v2 ^^^ v6 ^^^ v7,
     v0 ^^^ v1 ^^^ v2 ^^^ v3 ^^^ v7, v0 ^^^ v1 ^^^ v2 ^^^ v3 ^^^ v4, v1 ^^^ v2 ^^^ v3 ^^^ v4 ^^^ v5,
     v2 ^^^ v3 ^^^ v4 ^^^ v5 ^^^ v6, v3 ^^^ v4 ^^^ v5 ^^^ v6 ^^^ v7] := by
  simp only [affMatrix_eq, matVec, gfDot, gfAdd, List.map_cons, List.map_nil, List.zipWith_cons_cons,
    List.zipWith_nil_left, List.foldl_cons, List.foldl_nil, gfMul_one_left, gfMul_zero_left]
  simp

/-- The field element of a bit. -/
def bitByte (b : Bool) : Byte := if b then 0x01 else 0x00

theorem bitByte_xor (p q : Bool) : bitByte p ^^^ bitByte q = bitByte (p ^^ q) := by
  cases p <;> cases q <;> rfl

theorem bitVector_eq (x : Byte) : bitVector x =
    [bitByte (x.getLsbD 0), bitByte (x.getLsbD 1), bitByte (x.getLsbD 2), bitByte (x.getLsbD 3),
     bitByte (x.getLsbD 4), bitByte (x.getLsbD 5), bitByte (x.getLsbD 6), bitByte (x.getLsbD 7)] := rfl

theorem packBits_bitByte : ∀ b0 b1 b2 b3 b4 b5 b6 b7 : Bool,
    packBits [bitByte b0, bitByte b1, bitByte b2, bitByte b3, bitByte b4, bitByte b5, bitByte b6, bitByte b7] =
    BitVec.ofBoolListLE [b0, b1, b2, b3, b4, b5, b6, b7] := by decide +kernel

/-- Bit i of both sides is the sum of the bits of `x` that row i of AFF names, and bit i of 0x63. -/
theorem aff_eq_xor_rotateLeft (x : Byte) :
    aff x = x ^^^ x.rotateLeft 1 ^^^ x.rotateLeft 2 ^^^ x.rotateLeft 3 ^^^ x.rotateLeft 4 ^^^ 0x63 := by
  rw [aff, bitVector_eq, matVec_affMatrix, bitVector_eq]
  simp only [List.zipWith_cons_cons, List.zipWith_nil_left, gfAdd, bitByte_xor, packBits_bitByte]
  apply BitVec.eq_of_getLsbD_eq
  intro i (hi : i < 8)
  rw [BitVec.getLsbD_ofBoolListLE]
  interval_cases i
  all_goals
    simp
    grind

/-! ## The examples of the rules (R112, R114) -/

theorem gfInv_examples : gfInv 0x00 = 0x00 ∧ gfInv 0x01 = 0x01 ∧ gfInv 0x02 = 0x8d ∧ gfInv 0xff = 0x1c ∧
    gfInv 0x53 = 0xca := by
  refine ⟨gfInv_zero, ?_, ?_, ?_, ?_⟩ <;>
  · apply gfInv_eq_of_gfMul_eq_one
    decide +kernel

theorem aff_examples : aff 0x00 = 0x63 ∧ aff 0x01 = 0x7c ∧ aff 0xff = 0x9c ∧ aff 0xca = 0xed := by
  simp only [aff_eq_xor_rotateLeft]
  decide

/-! ## The statements -/

/-- Settles O40: the entries and rows are computed, and the closed form is compared bit by bit. -/
theorem affineMatrixAndClosedForm : Obligations.AffineMatrixAndClosedForm :=
  ⟨by rw [affMatrix_eq]; decide, affMatrix_eq, aff_eq_xor_rotateLeft⟩

/-- Settles O37: gf_mul is linear in each operand, and multiplication by x passes through it. -/
theorem gfArithmeticLaws : Obligations.GfArithmeticLaws := fun a b c =>
  ⟨BitVec.xor_self, BitVec.xor_zero, gfMul_one a, gfMul_zero a, gfMul_comm a b, gfMul_assoc a b c, gfMul_xor a b c,
    gfMul_gfInv, gfInv_gfInv a, gfMul_two a⟩

/-- Settles O38: the loop of square and multiply is the iterated product; a nonzero base has the 255th power 1, because
that power is its own square. -/
theorem gfPowIsReducedPower : Obligations.GfPowIsReducedPower :=
  ⟨gfPow_eq_iterate, gfPow_zero, gfPow_zero 0, gfPow_255 0, fun _ => gfPow_base_zero, fun _ => iterate_gfMul_255⟩

/-- Settles O39: the 254th power is an inverse, and inverses are unique by associativity. -/
theorem gfInvIsTheUniqueInverse : Obligations.GfInvIsTheUniqueInverse :=
  ⟨fun _ => rfl, fun _ _ ha => ⟨fun h => (gfInv_eq_of_gfMul_eq_one h).symm, fun h => h ▸ gfMul_gfInv ha⟩, gfInv_zero⟩

/-- Settles O35: each command is one write of GFR and has the word of its encoding; the corner cases are the laws above,
and the examples are computed. -/
theorem fieldCommandsWriteGfr : Obligations.FieldCommandsWriteGfr := by
  obtain ⟨hinv0, hinv1, hinv2, hinvff, hinv53⟩ := gfInv_examples
  obtain ⟨haff0, haff1, haffff, haffca⟩ := aff_examples
  refine ⟨fun a b s => ⟨rfl, rfl, rfl, rfl, rfl⟩, fun a b w => ?_, fun a => ?_, fun e h1 h2 => ?_, ?_, by decide⟩
  · exact ⟨decode_eq_ok_iff_eq_encode w _, decode_eq_ok_iff_eq_encode w _, decode_eq_ok_iff_eq_encode w _,
      decode_eq_ok_iff_eq_encode w _, decode_eq_ok_iff_eq_encode w _⟩
  · exact ⟨BitVec.xor_self, BitVec.xor_zero, gfMul_zero a, gfMul_zero_left a, gfMul_one a, gfMul_one_left a,
      gfPow_zero a, gfPow_255 a⟩
  · exact gfPow_base_zero (by omega)
  · exact ⟨by decide, by decide +kernel, by decide +kernel, by decide +kernel, hinv0, hinv1, hinv2, hinvff, hinv53,
      by decide +kernel, by decide +kernel, hinv2, haff0, haff1, haffff, haffca, by decide +kernel⟩

end Sys2Proof
end

section
/-!
SUPPORT. The tables (42_sbox.md): what the generator's loop for ISBOX makes of a forward table without repeated entries;
a test, by one multiplication, that a byte is another's S-box entry, and the listing checked by it; the listing is what
the generator makes, and its two tables undo each other; then the statements, settled from them.
-/

namespace Sys2Proof

/-! ## Entries of a table -/

theorem Table.ext_entry {t u : Table} (h : ∀ a, t.entry a = u.entry a) : t = u :=
  Vector.ext fun n hn => h (BitVec.ofFin ⟨n, hn⟩)

theorem Table.entry_set (t : Table) (a x b : Byte) :
    Table.entry (t.set a.toNat x a.isLt) b = if b = a then x else t.entry b := by
  simp only [Table.entry, Vector.getElem_set, BitVec.toNat_inj, eq_comm (a := a)]

/-- A relation of every index with its entry can be checked along the listing of a table. -/
theorem Table.forall_entry (t : Table) {P : Byte → Byte → Prop}
    (h : ∀ p ∈ t.toList.zipIdx, P (BitVec.ofNat 8 p.2) p.1) (b : Byte) : P b (t.entry b) := by
  have hmem : (t.entry b, b.toNat) ∈ t.toList.zipIdx := by
    rw [List.mk_mem_zipIdx_iff_getElem?, Vector.getElem?_toList, Vector.getElem?_eq_getElem b.isLt, Table.entry]
  simpa using h _ hmem

/-! ## The loop that makes the inverse table (R141, R151) -/

/-- The inverse table after the first `n` turns of the generator's loop. -/
def isboxAfter (sbox : Table) (n : Nat) : Table :=
  (List.range n).foldl
    (fun t b => t.set (sbox.entry (BitVec.ofNat 8 b)).toNat (BitVec.ofNat 8 b) (sbox.entry (BitVec.ofNat 8 b)).isLt)
    Table.zero

theorem generateIsbox_eq_isboxAfter (sbox : Table) : generateIsbox sbox = isboxAfter sbox 256 := rfl

/-- Turn `n` writes the one entry at SBOX[n]. -/
theorem entry_isboxAfter_succ (sbox : Table) (n : Nat) (a : Byte) : (isboxAfter sbox (n + 1)).entry a =
    if a = sbox.entry (BitVec.ofNat 8 n) then BitVec.ofNat 8 n else (isboxAfter sbox n).entry a := by
  rw [isboxAfter, List.range_succ, List.foldl_append, List.foldl_cons, List.foldl_nil, Table.entry_set, isboxAfter]

/-- An entry once written is kept, because no later turn writes at the same byte. -/
theorem entry_isboxAfter_of_lt {sbox : Table} (hinj : Function.Injective sbox.entry) (b : Byte) {n : Nat}
    (hb : b.toNat < n) : (isboxAfter sbox n).entry (sbox.entry b) = b := by
  induction n with
  | zero => omega
  | succ n ih =>
    simp only [entry_isboxAfter_succ, hinj.eq_iff]
    split
    · next hbn => exact hbn.symm
    · next hbn =>
      have hne : b.toNat ≠ n := fun h => hbn (by rw [← h, BitVec.ofNat_toNat, BitVec.setWidth_eq])
      exact ih (by omega)

theorem generateIsbox_leftInverse {sbox : Table} (hinj : Function.Injective sbox.entry) :
    Function.LeftInverse (generateIsbox sbox).entry sbox.entry := by
  intro b
  rw [generateIsbox_eq_isboxAfter]
  exact entry_isboxAfter_of_lt hinj b b.isLt

/-! ## Pairs of a byte and its S-box entry (R140) -/

/-- The inverse of the affine step. -/
def affInv (y : Byte) : Byte := y.rotateLeft 1 ^^^ y.rotateLeft 3 ^^^ y.rotateLeft 6 ^^^ 0x05

theorem aff_affInv (y : Byte) : aff (affInv y) = y := by
  rw [aff_eq_xor_rotateLeft]
  revert y; decide +kernel

/-- `y` is the S-box entry at `x`, said without raising to a power: one multiplication tests that the affine step was
applied to the inverse of `x`. -/
abbrev IsSboxPair (x y : Byte) : Prop := gfMul x (affInv y) = 1 ∨ x = 0 ∧ y = 0x63

theorem IsSboxPair.sboxEntry_eq {x y : Byte} (h : IsSboxPair x y) : sboxEntry x = y := by
  rcases h with h | ⟨rfl, rfl⟩
  · rw [sboxEntry, gfInv_eq_of_gfMul_eq_one h, aff_affInv]
  · rw [sboxEntry, gfInv_zero]; exact aff_examples.1

/-! ## The listing (R142, R150) -/

/-- The listing of SBOX agrees with R140 at every byte. -/
theorem entry_sboxTable (b : Byte) : sboxTable.entry b = sboxEntry b :=
  (sboxTable.forall_entry (P := IsSboxPair) (by decide +kernel) b).sboxEntry_eq.symm

/-- The listing of ISBOX holds at every byte one whose S-box entry it is. -/
theorem sboxEntry_isboxTable (a : Byte) : sboxEntry (isboxTable.entry a) = a :=
  (isboxTable.forall_entry (P := fun a x => IsSboxPair x a) (by decide +kernel) a).sboxEntry_eq

theorem isboxTable_rightInverse_sboxTable : Function.RightInverse isboxTable.entry sboxTable.entry :=
  fun a => (entry_sboxTable _).trans (sboxEntry_isboxTable a)

theorem sboxTable_bijective : Function.Bijective sboxTable.entry :=
  Finite.surjective_iff_bijective.mp isboxTable_rightInverse_sboxTable.surjective

theorem isboxTable_leftInverse_sboxTable : Function.LeftInverse isboxTable.entry sboxTable.entry :=
  isboxTable_rightInverse_sboxTable.leftInverse_of_injective sboxTable_bijective.injective

theorem IsSboxPair.entry_sboxTable_eq {x y : Byte} (h : IsSboxPair x y) : sboxTable.entry x = y :=
  (entry_sboxTable x).trans h.sboxEntry_eq

theorem IsSboxPair.entry_isboxTable_eq {x y : Byte} (h : IsSboxPair x y) : isboxTable.entry y = x := by
  rw [← h.entry_sboxTable_eq, isboxTable_leftInverse_sboxTable]

theorem sboxTable_entry_ne_self (b : Byte) : sboxTable.entry b ≠ b :=
  sboxTable.forall_entry (P := fun b y => y ≠ b) (by decide +kernel) b

theorem generateSbox_eq_sboxTable : generateSbox = sboxTable :=
  Table.ext_entry fun b => (Machine.entry_generateSbox b).trans (entry_sboxTable b).symm

/-- Every byte is an entry of SBOX, and at SBOX[b] both tables hold `b`. -/
theorem generateIsbox_sboxTable : generateIsbox sboxTable = isboxTable := by
  apply Table.ext_entry
  intro a
  obtain ⟨b, rfl⟩ := sboxTable_bijective.surjective a
  rw [generateIsbox_leftInverse sboxTable_bijective.injective b, isboxTable_leftInverse_sboxTable b]

end Sys2Proof

namespace Sys2Proof.Machine

/-! ## The statements -/

/-- The end of generation puts the generator's tables in place, which are the listing. -/
theorem State.endGeneration_eq_generated (s : State) : s.endGeneration =
    { s with sbox := generateSbox, isbox := generateIsbox generateSbox, sbrdy := true, gen := false } := by
  rw [generateSbox_eq_sboxTable, generateIsbox_sboxTable, State.endGeneration]

/-- Settles O9: the turn is the end of generation, whose listed tables are the generator's. -/
theorem generationInstallsGeneratedTables : Obligations.GenerationInstallsGeneratedTables := by
  intro s hseq hgen hpend
  have hstep : step s = .next s.popTurn.endGeneration :=
    (step_of_sequencerNext hseq).trans (sequencerTurn_of_gen hgen)
  have hbusy : s.popTurn.endGeneration.busy = false := by simp [State.busy, hpend]
  exact ⟨s.popTurn.endGeneration, hstep, s.popTurn.endGeneration_eq_generated, entry_sboxTable,
    isboxTable_leftInverse_sboxTable, hbusy⟩

/-- Settles O41: the listed tables are in place, which undo each other because SBOX takes every entry of ISBOX back and
the set of bytes is finite. -/
theorem tablesAreInversePermutations : Obligations.TablesAreInversePermutations := by
  intro s hinv hready
  obtain ⟨hsbox, hisbox⟩ := hinv.tables hready
  rw [hsbox, hisbox]
  exact ⟨isboxTable_leftInverse_sboxTable, isboxTable_rightInverse_sboxTable, sboxTable_bijective,
    IsSboxPair.entry_sboxTable_eq (by decide), sboxTable_entry_ne_self,
    IsSboxPair.entry_isboxTable_eq (by decide)⟩

/-- Settles O42: each command is one write of GFR and has the word of its encoding; the corner cases and examples are
pairs of a byte and its S-box entry, which the listed tables hold in both directions. -/
theorem tableReadCommandsWriteGfr : Obligations.TableReadCommandsWriteGfr := by
  refine ⟨fun a s => ⟨rfl, rfl⟩, fun a w => ⟨?_, ?_⟩, fun s hinv hready => ?_, by decide, by decide⟩
  · exact decode_eq_ok_iff_eq_encode w (.sbox a)
  · exact decode_eq_ok_iff_eq_encode w (.isbox a)
  · obtain ⟨hsbox, hisbox⟩ := hinv.tables hready
    have hsboxPairs : ∀ p ∈ [(0x00#8, 0x63#8), (0xff, 0x16), (0x53, 0xed)], IsSboxPair p.1 p.2 := by
      rw [List.forall_mem_cons, List.forall_mem_cons, List.forall_mem_singleton]
      decide
    have hisboxPairs : ∀ p ∈ [(0x63#8, 0x00#8), (0x00, 0x52), (0xed, 0x53)], IsSboxPair p.2 p.1 := by
      rw [List.forall_mem_cons, List.forall_mem_cons, List.forall_mem_singleton]
      decide
    refine ⟨fun p hp => ⟨_, rfl, ?_⟩, fun p hp => ⟨_, rfl, ?_⟩⟩
    · exact hsbox ▸ (hsboxPairs p hp).entry_sboxTable_eq
    · exact hisbox ▸ (hisboxPairs p hp).entry_isboxTable_eq

end Sys2Proof.Machine
end

section
/-!
SUPPORT. The key schedule (43_key_schedule.md): the round keys by their index, and the columns of a round key from those
of the one before it; then the statement, settled from them.
-/

namespace Sys2Proof

/-! ## The round keys by their index (R163) -/

theorem roundKey_zero (sbox : Table) (key : Block) : roundKey sbox key 0 = key := rfl

theorem roundKey_succ (sbox : Table) (key : Block) (r : Nat) :
    roundKey sbox key (r + 1) = nextRoundKey sbox (r + 1) (roundKey sbox key r) := rfl

/-! ## The columns of the next round key (R163) -/

section Columns
variable (sbox : Table) (r : Nat) (prev : Block)

theorem col_zero_nextRoundKey : (nextRoundKey sbox r prev).col 0 =
    ((subWord sbox (rotateLeft1 (prev.col 3))).xor (rcon r)).xor (prev.col 0) := rfl

theorem col_one_nextRoundKey : (nextRoundKey sbox r prev).col 1 =
    ((nextRoundKey sbox r prev).col 0).xor (prev.col 1) := rfl

theorem col_two_nextRoundKey : (nextRoundKey sbox r prev).col 2 =
    ((nextRoundKey sbox r prev).col 1).xor (prev.col 2) := rfl

theorem col_three_nextRoundKey : (nextRoundKey sbox r prev).col 3 =
    ((nextRoundKey sbox r prev).col 2).xor (prev.col 3) := rfl

end Columns

end Sys2Proof

namespace Sys2Proof.Machine

/-! ## The statement -/

/-- Settles O46: entry `r` of the schedule is round key `r`, which for `r ≥ 1` is the next one after round key `r - 1`. -/
theorem expandFollowsTheRecurrence : Obligations.ExpandFollowsTheRecurrence := by
  intro sbox key rounds
  have hfirst : (expand sbox key rounds)[0]? = some key := by
    rw [getElem?_expand sbox key (Nat.zero_le rounds), roundKey_zero]
  refine ⟨length_expand sbox key rounds, hfirst, fun r hpos hle => ?_⟩
  cases r with
  | zero => exact absurd hpos (by decide)
  | succ r =>
    have hprev : (expand sbox key rounds)[r]? = some (roundKey sbox key r) := getElem?_expand sbox key (by omega)
    have hnext : (expand sbox key rounds)[r + 1]? = some (nextRoundKey sbox (r + 1) (roundKey sbox key r)) := by
      rw [getElem?_expand sbox key hle, roundKey_succ]
    exact ⟨_, _, hprev, hnext, col_zero_nextRoundKey .., col_one_nextRoundKey .., col_two_nextRoundKey ..,
      col_three_nextRoundKey ..⟩

end Sys2Proof.Machine
end

section
/-!
SUPPORT. The transforms (44_transforms.md): a block is given by its elements at the rows and columns; the elements of a
mapped and of a shifted block; a round-key command as one `withRoundKey`; then the statements, settled from them.
-/

namespace Sys2Proof

/-! ## The elements of a block (R15) -/

@[simp] theorem Block.at_build (f : Fin 4 → Fin 4 → Byte) (r c : Fin 4) : (Block.build f).at r c = f r c := by
  fin_cases c <;> fin_cases r <;> rfl

theorem Block.build_at (v : Block) : Block.build v.at = v := rfl

theorem Block.ext_at {v w : Block} (h : ∀ r c, v.at r c = w.at r c) : v = w := by
  rw [← v.build_at, ← w.build_at, funext fun r => funext (h r)]

/-- Byte `r+4c` of a block is its element at row `r`, column `c`. -/
theorem Block.byte_eq_at (v : Block) {i : Fin 16} {r c : Fin 4} (h : i.val = r.val + 4 * c.val) :
    v.byte i = v.at r c :=
  v.byte_eq_row (h.trans (Nat.add_comm ..))

theorem Vec4.row_map (f : Byte → Byte) (x : Vec4) (r : Fin 4) : (x.map f).row r = f (x.row r) := by
  fin_cases r <;> rfl

theorem Block.col_map (f : Byte → Byte) (v : Block) (c : Fin 4) : (v.map f).col c = (v.col c).map f := by
  fin_cases c <;> rfl

theorem Block.byte_map (f : Byte → Byte) (v : Block) (i : Fin 16) : (v.map f).byte i = f (v.byte i) := by
  rw [Block.byte, Block.at, Block.col_map, Vec4.row_map, Block.byte, Block.at]

/-! ## Shifted rows (R172, R173) -/

@[simp] theorem at_shiftRows (v : Block) (r c : Fin 4) : (shiftRows v).at r c = v.at r (c + r) := Block.at_build ..

@[simp] theorem at_invShiftRows (v : Block) (r c : Fin 4) : (invShiftRows v).at r c = v.at r (c - r) :=
  Block.at_build ..

theorem byte_shiftRows (v : Block) {r c : Nat} {i j : Fin 16} (hr : r ≤ 3) (hc : c ≤ 3) (hi : i.val = r + 4 * c)
    (hj : j.val = r + 4 * ((c + r) % 4)) : (shiftRows v).byte i = v.byte j := by
  lift r to Fin 4 using Nat.lt_succ_of_le hr
  lift c to Fin 4 using Nat.lt_succ_of_le hc
  rw [Block.byte_eq_at _ hi, at_shiftRows, v.byte_eq_at (r := r) (c := c + r) (by rw [hj, Fin.val_add])]

theorem byte_invShiftRows (v : Block) {r c : Nat} {i j : Fin 16} (hr : r ≤ 3) (hc : c ≤ 3) (hi : i.val = r + 4 * c)
    (hj : j.val = r + 4 * ((c + 4 - r) % 4)) : (invShiftRows v).byte i = v.byte j := by
  lift r to Fin 4 using Nat.lt_succ_of_le hr
  lift c to Fin 4 using Nat.lt_succ_of_le hc
  have hcol : (c - r).val = (c + 4 - r) % 4 := by rw [Fin.val_sub]; omega
  rw [Block.byte_eq_at _ hi, at_invShiftRows, v.byte_eq_at (r := r) (c := c - r) (by rw [hj, hcol])]

theorem invShiftRows_shiftRows (v : Block) : invShiftRows (shiftRows v) = v :=
  Block.ext_at fun r c => by rw [at_invShiftRows, at_shiftRows, sub_add_cancel]

/-- Four shifts move row `r` by `4r` columns, which is no move at all. -/
theorem shiftRows_four_times (v : Block) : shiftRows (shiftRows (shiftRows (shiftRows v))) = v := by
  have hcol : ∀ r c : Fin 4, c + r + r + r + r = c := by decide
  exact Block.ext_at fun r c => by simp only [at_shiftRows, hcol]

/-- Columns that are all equal can be taken for each other. -/
theorem shiftRows_of_equal_columns {v : Block} (h1 : v.c1 = v.c0) (h2 : v.c2 = v.c0) (h3 : v.c3 = v.c0) :
    shiftRows v = v := by
  have hcol : ∀ c, v.col c = v.c0
    | 0 => rfl
    | 1 => h1
    | 2 => h2
    | 3 => h3
  exact Block.ext_at fun r c => by rw [at_shiftRows, Block.at, Block.at, hcol, hcol]

/-! ## The examples of the rules (R180, R181, R184, R185) -/

theorem subBytes_examples :
    subBytes sboxTable (Block.ofHex 0) = Block.ofHex 0x63636363636363636363636363636363 ∧
    subBytes sboxTable (Block.ofHex 0xffffffffffffffffffffffffffffffff) =
      Block.ofHex 0x16161616161616161616161616161616 ∧
    subBytes sboxTable (Block.ofHex 0x000102030405060708090a0b0c0d0e0f) =
      Block.ofHex 0x637c777bf26b6fc53001672bfed7ab76 := by
  decide

theorem invSubBytes_examples :
    invSubBytes isboxTable (Block.ofHex 0x63636363636363636363636363636363) = Block.ofHex 0 ∧
    invSubBytes isboxTable (Block.ofHex 0) = Block.ofHex 0x52525252525252525252525252525252 ∧
    invSubBytes isboxTable (Block.ofHex 0x000102030405060708090a0b0c0d0e0f) =
      Block.ofHex 0x52096ad53036a538bf40a39e81f3d7fb := by
  decide

end Sys2Proof

namespace Sys2Proof.Machine

/-! ## Round-key commands (R178) -/

/-- Each of the five is `withRoundKey` at its operand, with a composition of its own. -/
theorem exec_eq_withRoundKey (k : Byte) (s : State) :
    ∀ i ∈ [Instr.addrk k, .round k, .finalround k, .invround k, .invfinalround k],
      ∃ f, exec i s = withRoundKey k s f := by
  simp only [List.forall_mem_cons]
  exact ⟨⟨_, rfl⟩, ⟨_, rfl⟩, ⟨_, rfl⟩, ⟨_, rfl⟩, ⟨_, rfl⟩, nofun⟩

/-! ## The statements -/

/-- Settles O53: the precondition answers NO_SCHEDULE or BAD_INDEX, and the command takes that error. -/
theorem roundKeyCommandsAbort : Obligations.RoundKeyCommandsAbort := by
  intro k s i hi
  obtain ⟨f, hexec⟩ := exec_eq_withRoundKey k s i hi
  refine ⟨fun hksv => ?_, fun hksv hk => ?_⟩
  · rw [hexec, withRoundKey_of_error f (s.requireRk_of_no_schedule k hksv), State.raise_eq_withError]; rfl
  · rw [hexec, withRoundKey_of_error f (s.requireRk_of_bad_index k hksv hk), State.raise_eq_withError]; rfl

/-- Settles O48: each command is one write of ST and has the word of its encoding; a substitution acts byte by byte, a
shift moves the elements of a row to other columns, and the examples are computed. -/
theorem substitutionAndShiftCommandsWriteSt : Obligations.SubstitutionAndShiftCommandsWriteSt := by
  obtain ⟨hsub0, hsubff, hsubseq⟩ := subBytes_examples
  obtain ⟨hinv63, hinv0, hinvseq⟩ := invSubBytes_examples
  refine ⟨fun s => ⟨⟨_, rfl, ?_⟩, ⟨_, rfl, ?_⟩, ⟨_, rfl, ?_⟩, ⟨_, rfl, ?_⟩⟩, fun w => ?_, ?_, fun v => ?_,
    fun v => shiftRows_of_equal_columns⟩
  · exact Block.byte_map s.sbox.entry s.st
  · exact Block.byte_map s.isbox.entry s.st
  · exact fun _ _ _ _ hr hc hi hj => byte_shiftRows s.st hr hc hi hj
  · exact fun _ _ _ _ hr hc hi hj => byte_invShiftRows s.st hr hc hi hj
  · exact ⟨decode_eq_ok_iff_eq_encode w _, decode_eq_ok_iff_eq_encode w _, decode_eq_ok_iff_eq_encode w _,
      decode_eq_ok_iff_eq_encode w _⟩
  · exact ⟨hsub0, hsubff, hsubseq, hinv63, hinv0, hinvseq, by decide, by decide⟩
  · exact ⟨shiftRows_four_times v, invShiftRows_shiftRows v⟩

end Sys2Proof.Machine
end

section
/-!
SUPPORT. Rounds and blocks (45_rounds_block.md): the transforms undo each other, hence the round compositions, hence the
loops of encrypt and decrypt; in a state whose schedule is valid a round-key command takes its round key from
`roundKey`, so that the commands of the loops, run one by one, compute the same loops; then the statements, settled from
them.
-/

namespace Sys2Proof

-- Proofs are elaborated in order, as in a mutual block, and not each as a task of its own: the tasks of this file would
-- wait beside those of the text above, and a waiting thread's stack counts against the check's memory.
set_option deprecated.oldSectionVars true

/-! ## Substitutions that undo each other (R170, R171) -/

theorem Block.at_map (f : Byte → Byte) (v : Block) (r c : Fin 4) : (v.map f).at r c = f (v.at r c) := by
  rw [Block.at, Block.col_map, Vec4.row_map, Block.at]

theorem Block.map_leftInverse {f g : Byte → Byte} (h : Function.LeftInverse g f) :
    Function.LeftInverse (Block.map g) (Block.map f) :=
  fun v => Block.ext_at fun r c => by rw [Block.at_map, Block.at_map, h]

theorem invSubBytes_subBytes (v : Block) : invSubBytes isboxTable (subBytes sboxTable v) = v :=
  Block.map_leftInverse isboxTable_leftInverse_sboxTable v

theorem subBytes_invSubBytes (v : Block) : subBytes sboxTable (invSubBytes isboxTable v) = v :=
  Block.map_leftInverse isboxTable_rightInverse_sboxTable v

/-! ## Shifts and key additions that undo each other (R172, R173, R176) -/

theorem shiftRows_invShiftRows (v : Block) : shiftRows (invShiftRows v) = v :=
  Block.ext_at fun r c => by rw [at_shiftRows, at_invShiftRows, add_sub_cancel_right]

theorem addRoundKey_addRoundKey (v k : Block) : addRoundKey (addRoundKey v k) k = v := by
  simp [addRoundKey, Block.xor, Vec4.xor]

/-! ## Products of matrices (R106) -/

/-- The row `u·M`. -/
def Vec4.vecMul (u : Vec4) (m : Mat4) : Vec4 :=
  ⟨gfDot u.toList [m.row0.b0, m.row1.b0, m.row2.b0, m.row3.b0],
   gfDot u.toList [m.row0.b1, m.row1.b1, m.row2.b1, m.row3.b1],
   gfDot u.toList [m.row0.b2, m.row1.b2, m.row2.b2, m.row3.b2],
   gfDot u.toList [m.row0.b3, m.row1.b3, m.row2.b3, m.row3.b3]⟩

/-- The product of two matrices. -/
def Mat4.mul (m n : Mat4) : Mat4 := ⟨m.row0.vecMul n, m.row1.vecMul n, m.row2.vecMul n, m.row3.vecMul n⟩

/-- The unit matrix. -/
def Mat4.one : Mat4 := ⟨⟨1, 0, 0, 0⟩, ⟨0, 1, 0, 0⟩, ⟨0, 0, 1, 0⟩, ⟨0, 0, 0, 1⟩⟩

/-- The sum of R106 starts from 0. -/
theorem gfDot_four (a b c d x y z w : Byte) :
    gfDot [a, b, c, d] [x, y, z, w] = gfMul a x ^^^ gfMul b y ^^^ gfMul c z ^^^ gfMul d w :=
  congrArg (· ^^^ gfMul b y ^^^ gfMul c z ^^^ gfMul d w) (BitVec.zero_xor (x := gfMul a x))

/-- Both sides are the sum of the products `u[i]·M[i][j]·v[j]`. -/
theorem gfDot_vecMul (u : Vec4) (m : Mat4) (v : Vec4) :
    gfDot (u.vecMul m).toList v.toList = gfDot u.toList (m.mulVec v).toList := by
  simp only [Vec4.vecMul, Mat4.mulVec, Vec4.toList, gfDot_four, gfMul_xor, xor_gfMul, gfMul_assoc]
  ac_rfl

theorem Mat4.mulVec_mul (m n : Mat4) (v : Vec4) : (m.mul n).mulVec v = m.mulVec (n.mulVec v) := by
  simp only [Mat4.mulVec, Mat4.mul, gfDot_vecMul]

theorem Mat4.mulVec_one (v : Vec4) : Mat4.one.mulVec v = v := by
  have hone : ∀ a, gfMul 1 a = a := gfMul_one_left
  have hzero : ∀ a, gfMul 0 a = 0 := gfMul_zero_left
  simp only [Mat4.mulVec, Mat4.one, Vec4.toList, gfDot_four, hone, hzero]
  simp

theorem Mat4.mulVec_leftInverse {m n : Mat4} (h : m.mul n = .one) : Function.LeftInverse m.mulVec n.mulVec :=
  fun v => by rw [← Mat4.mulVec_mul, h, Mat4.mulVec_one]

/-! ## Mixings that undo each other (R174, R175) -/

theorem Block.mapCols_leftInverse {f g : Vec4 → Vec4} (h : Function.LeftInverse g f) :
    Function.LeftInverse (Block.mapCols g) (Block.mapCols f) :=
  fun v => by simp only [Block.mapCols, h _]

theorem invMixMatrix_mul_mixMatrix : invMixMatrix.mul mixMatrix = .one := by decide

theorem mixMatrix_mul_invMixMatrix : mixMatrix.mul invMixMatrix = .one := by decide

theorem invMixColumns_mixColumns (v : Block) : invMixColumns (mixColumns v) = v :=
  Block.mapCols_leftInverse (Mat4.mulVec_leftInverse invMixMatrix_mul_mixMatrix) v

theorem mixColumns_invMixColumns (v : Block) : mixColumns (invMixColumns v) = v :=
  Block.mapCols_leftInverse (Mat4.mulVec_leftInverse mixMatrix_mul_invMixMatrix) v

/-! ## Rounds that undo each other (R193 to R196) -/

section Rounds
variable (v k : Block)

theorem invCipherRound_cipherRound : invCipherRound isboxTable (cipherRound sboxTable v k) k = v := by
  rw [invCipherRound, cipherRound, addRoundKey_addRoundKey, invMixColumns_mixColumns, invShiftRows_shiftRows,
    invSubBytes_subBytes]

theorem cipherRound_invCipherRound : cipherRound sboxTable (invCipherRound isboxTable v k) k = v := by
  rw [cipherRound, invCipherRound, subBytes_invSubBytes, shiftRows_invShiftRows, mixColumns_invMixColumns,
    addRoundKey_addRoundKey]

theorem invCipherFinalRound_cipherFinalRound :
    invCipherFinalRound isboxTable (cipherFinalRound sboxTable v k) k = v := by
  rw [invCipherFinalRound, cipherFinalRound, addRoundKey_addRoundKey, invShiftRows_shiftRows, invSubBytes_subBytes]

theorem cipherFinalRound_invCipherFinalRound :
    cipherFinalRound sboxTable (invCipherFinalRound isboxTable v k) k = v := by
  rw [cipherFinalRound, invCipherFinalRound, subBytes_invSubBytes, shiftRows_invShiftRows, addRoundKey_addRoundKey]

end Rounds

/-! ## Loops and blocks that undo each other (R190 to R192) -/

/-- The loop of decrypt undoes the last turn of the loop of encrypt first. -/
theorem invMiddleRounds_middleRounds (rk : Nat → Block) (n : Nat) (v : Block) :
    invMiddleRounds isboxTable rk n (middleRounds sboxTable rk n v) = v := by
  induction n with
  | zero => rfl
  | succ n ih => rw [middleRounds, invMiddleRounds, invCipherRound_cipherRound, ih]

theorem middleRounds_invMiddleRounds (rk : Nat → Block) (n : Nat) (v : Block) :
    middleRounds sboxTable rk n (invMiddleRounds isboxTable rk n v) = v := by
  induction n generalizing v with
  | zero => rfl
  | succ n ih => rw [invMiddleRounds, middleRounds, ih, cipherRound_invCipherRound]

theorem decrypt_encrypt (p key : Block) (rounds : Nat) :
    decrypt sboxTable isboxTable (encrypt sboxTable p key rounds) key rounds = p := by
  rw [decrypt, encrypt, invCipherFinalRound_cipherFinalRound, invMiddleRounds_middleRounds, addRoundKey_addRoundKey]

theorem encrypt_decrypt (c key : Block) (rounds : Nat) :
    encrypt sboxTable (decrypt sboxTable isboxTable c key rounds) key rounds = c := by
  rw [encrypt, decrypt, addRoundKey_addRoundKey, middleRounds_invMiddleRounds, cipherFinalRound_invCipherFinalRound]

end Sys2Proof

namespace Sys2Proof.Machine

-- As above: proofs are elaborated in order.
set_option deprecated.oldSectionVars true

/-! ## Sequences of commands -/

/-- A command that completes is followed by the rest of the sequence. -/
theorem execAll_cons {i : Instr} {s t : State} (h : exec i s = .next t) (l : List Instr) :
    execAll (i :: l) s = execAll l t := by
  rw [execAll, h]

/-- Commands that complete are followed by the rest of the sequence. -/
theorem execAll_append {l : List Instr} {s t : State} (h : execAll l s = .next t) (l' : List Instr) :
    execAll (l ++ l') s = execAll l' t := by
  induction l generalizing s with
  | nil => cases h; rfl
  | cons i l ih =>
    rw [List.cons_append, execAll]
    rw [execAll] at h
    split at h
    · exact ih h
    · cases h
    · cases h

theorem execAll_singleton {i : Instr} {s t : State} (h : exec i s = .next t) : execAll [i] s = .next t :=
  execAll_cons h []

/-! ## States whose schedule is valid (R28) -/

/-- A command that writes ST alone keeps the invariant. -/
theorem State.Inv.setSt_retire {s : State} (hinv : s.Inv) (v : Block) : (s.setSt v).retire.Inv :=
  { hinv with gen_pend := fun _ => rfl }

section ValidSchedule

variable {s : State} (hinv : s.Inv) (hksv : s.ksv = true)
include hinv hksv

theorem State.Inv.sbox_eq : s.sbox = sboxTable := (hinv.tables (hinv.ksv_sbrdy hksv)).1

/-- The schedule that is valid is the one that KEYEXP would load. -/
theorem State.Inv.loadSchedule_eq_self : s.loadSchedule = s := by
  have hrks : s.loadSchedule.rks = s.rks := by
    rw [State.loadSchedule_rks, hinv.sbox_eq hksv, ← hinv.ksv_schedule hksv, List.take_append_drop]
  calc s.loadSchedule
    _ = { s with rks := s.loadSchedule.rks, ksv := true } := rfl
    _ = s := by rw [hrks, ← hksv]

theorem State.Inv.getElem?_rks {r : Nat} (hr : r ≤ s.rounds) : s.rks[r]? = some (roundKey s.sbox s.key r) := by
  rw [← getElem?_expand s.sbox s.key hr, ← s.take_loadSchedule, hinv.loadSchedule_eq_self hksv,
    List.getElem?_take_of_lt (Nat.lt_succ_of_le hr)]

/-- A round-key command whose index is in range writes ST from the round key of that index (R178). -/
theorem State.Inv.withRoundKey_eq (f : Block → Block → Block) {r : Nat} (hr : r ≤ s.rounds) :
    withRoundKey (BitVec.ofNat 8 r) s f = .next (s.setSt (f s.st (roundKey s.sbox s.key r))).retire := by
  have hbyte : (BitVec.ofNat 8 r).toNat = r := by
    have := hinv.rounds_range
    have := Config.rmax_le
    rw [BitVec.toNat_ofNat]
    omega
  refine withRoundKey_of_entry f ((s.requireRk_eq_none_iff _).mpr ⟨hksv, ?_⟩) ?_
  · rwa [hbyte]
  · rw [hbyte, hinv.getElem?_rks hksv hr]

/-- The same, after a command that wrote ST. -/
theorem State.Inv.withRoundKey_setSt (f : Block → Block → Block) {r : Nat} (hr : r ≤ s.rounds) (v : Block) :
    withRoundKey (BitVec.ofNat 8 r) (s.setSt v).retire f = .next (s.setSt (f v (roundKey s.sbox s.key r))).retire :=
  (hinv.setSt_retire v).withRoundKey_eq hksv f hr

/-! ## The loops of R190 and R191, command by command (R199) -/

theorem execAll_rounds {n : Nat} (hn : n ≤ s.rounds) (v : Block) :
    execAll ((List.range n).map fun r => .round (BitVec.ofNat 8 (r + 1))) (s.setSt v).retire =
      .next (s.setSt (middleRounds s.sbox (roundKey s.sbox s.key) n v)).retire := by
  induction n with
  | zero => rfl
  | succ n ih =>
    rw [List.range_succ, List.map_append, execAll_append (ih (by omega))]
    exact execAll_singleton (hinv.withRoundKey_setSt hksv (cipherRound s.sbox) hn _)

theorem execAll_invrounds {n : Nat} (hn : n ≤ s.rounds) (v : Block) :
    execAll ((List.range n).map fun j => .invround (BitVec.ofNat 8 (n - j))) (s.setSt v).retire =
      .next (s.setSt (invMiddleRounds s.isbox (roundKey s.sbox s.key) n v)).retire := by
  induction n generalizing v with
  | zero => rfl
  | succ n ih =>
    have hfirst : exec (.invround (BitVec.ofNat 8 (n + 1))) (s.setSt v).retire =
        .next (s.setSt (invCipherRound s.isbox v (roundKey s.sbox s.key (n + 1)))).retire :=
      hinv.withRoundKey_setSt hksv (invCipherRound s.isbox) hn v
    simp only [List.range_succ_eq_map, List.map_cons, List.map_map, Function.comp_def, Nat.sub_zero,
      Nat.succ_eq_add_one, Nat.add_sub_add_right]
    rw [execAll_cons hfirst]
    exact ih (by omega) _

/-- The commands of R199 for ENC. -/
theorem execAll_encSequence :
    execAll ([Instr.addrk 0] ++ (List.range (s.rounds - 1)).map (fun r => Instr.round (BitVec.ofNat 8 (r + 1)))
      ++ [Instr.finalround (BitVec.ofNat 8 s.rounds)]) s =
      .next (s.setSt (encrypt s.sbox s.st s.key s.rounds)).retire := by
  have hfirst : execAll [.addrk 0] s = .next (s.setSt (addRoundKey s.st (roundKey s.sbox s.key 0))).retire :=
    execAll_singleton (hinv.withRoundKey_eq hksv addRoundKey (Nat.zero_le _))
  rw [List.append_assoc, execAll_append hfirst, execAll_append (execAll_rounds hinv hksv (Nat.sub_le ..) _)]
  exact execAll_singleton (hinv.withRoundKey_setSt hksv (cipherFinalRound s.sbox) le_rfl _)

/-- The commands of R199 for DEC. -/
theorem execAll_decSequence :
    execAll ([Instr.invfinalround (BitVec.ofNat 8 s.rounds)]
      ++ (List.range (s.rounds - 1)).map (fun j => Instr.invround (BitVec.ofNat 8 (s.rounds - 1 - j)))
      ++ [Instr.addrk 0]) s = .next (s.setSt (decrypt s.sbox s.isbox s.st s.key s.rounds)).retire := by
  have hfirst : execAll [.invfinalround (BitVec.ofNat 8 s.rounds)] s =
      .next (s.setSt (invCipherFinalRound s.isbox s.st (roundKey s.sbox s.key s.rounds))).retire :=
    execAll_singleton (hinv.withRoundKey_eq hksv (invCipherFinalRound s.isbox) le_rfl)
  rw [List.append_assoc, execAll_append hfirst, execAll_append (execAll_invrounds hinv hksv (Nat.sub_le ..) _)]
  exact execAll_singleton (hinv.withRoundKey_setSt hksv addRoundKey (Nat.zero_le _) _)

theorem exec_enc_of_validSchedule : exec .enc s = .next (s.setSt (encrypt s.sbox s.st s.key s.rounds)).retire := by
  have h : exec .enc s = .next (s.loadSchedule.setSt (encrypt s.sbox s.st s.key s.rounds)).retire := rfl
  rwa [hinv.loadSchedule_eq_self hksv] at h

theorem exec_dec_of_validSchedule :
    exec .dec s = .next (s.setSt (decrypt s.sbox s.isbox s.st s.key s.rounds)).retire := by
  have h : exec .dec s = .next (s.loadSchedule.setSt (decrypt s.sbox s.isbox s.st s.key s.rounds)).retire := rfl
  rwa [hinv.loadSchedule_eq_self hksv] at h

end ValidSchedule

/-! ## The statements -/

/-- Settles O57: each composition undoes the other step by step, the loops by induction on the number of rounds. -/
theorem decryptInvertsEncrypt : Obligations.DecryptInvertsEncrypt :=
  fun p key rounds _ => ⟨decrypt_encrypt p key rounds, encrypt_decrypt p key rounds⟩

/-- Settles O59: a valid schedule is not changed by loading it again, and the single commands run through the loops of
encrypt and decrypt with its round keys; both ways end in the same state. -/
theorem blockCommandsEqualSingleRounds : Obligations.BlockCommandsEqualSingleRounds := by
  refine ⟨fun s hinv hksv => ⟨?_, ?_⟩, fun s t h => ?_⟩
  · exact ⟨_, _, exec_enc_of_validSchedule hinv hksv, execAll_encSequence hinv hksv, rfl, rfl⟩
  · exact ⟨_, _, exec_dec_of_validSchedule hinv hksv, execAll_decSequence hinv hksv, rfl, rfl⟩
  · cases h
    rfl

end Sys2Proof.Machine
end

section
/-!
SUPPORT. Exceptions (60_exceptions.md): a pending word is illegal when it is a legal word of no operation, and its
completion is the abort of R228; then the statement, settled from both.
-/

namespace Sys2Proof

/-! ## When a word is illegal (R76, R222) -/

theorem Opcode.code_injective : Function.Injective Opcode.code := fun op op' h =>
  Option.some_injective _ (((ofCode_eq_some_iff _ op).mpr h).symm.trans ((ofCode_eq_some_iff _ op').mpr rfl))

/-- A word is rejected exactly when it is a legal word of no operation. -/
theorem forall_decode_ne_ok_iff (w : Word) : (∀ i, decode w ≠ .ok i) ↔ ∀ op : Opcode, ¬ op.LegalWord w := by
  constructor
  · exact fun h op hlegal => h _ ((decode_eq_ok_iff w _).mpr ⟨op, hlegal, rfl⟩)
  · intro h i hi
    obtain ⟨op, hlegal, -⟩ := (decode_eq_ok_iff w i).mp hi
    exact h op hlegal

/-- A word with the OP of `op` is a legal word of it unless RSV or a field that `op` does not use is nonzero. -/
theorem Opcode.not_legalWord_iff {op : Opcode} {w : Word} (h : op.code = fieldOp w) : ¬ op.LegalWord w ↔
    fieldRsv w ≠ 0 ∨ (op.usesA = false ∧ fieldA w ≠ 0) ∨ (op.usesB = false ∧ fieldB w ≠ 0) := by
  simp only [Opcode.LegalWord, h, true_and, not_and_or, Classical.not_imp, ne_eq]

/-- The two cases of R222: OP is reserved, or OP names the one operation that the word could be a command of, and a
field that has to be 0 is not. -/
theorem forall_not_legalWord_iff (w : Word) : (∀ op : Opcode, ¬ op.LegalWord w) ↔
    (∀ op : Opcode, op.code ≠ fieldOp w) ∨
    ∃ op : Opcode, op.code = fieldOp w ∧
      (fieldRsv w ≠ 0 ∨ (op.usesA = false ∧ fieldA w ≠ 0) ∨ (op.usesB = false ∧ fieldB w ≠ 0)) := by
  constructor
  · intro h
    by_cases hop : ∃ op : Opcode, op.code = fieldOp w
    · obtain ⟨op, hcode⟩ := hop
      exact .inr ⟨op, hcode, (Opcode.not_legalWord_iff hcode).mp (h op)⟩
    · exact .inl (not_exists.mp hop)
  · rintro (hreserved | ⟨op, hcode, hfields⟩) op' hlegal
    · exact hreserved op' hlegal.1
    · obtain rfl : op' = op := Opcode.code_injective (hlegal.1.trans hcode.symm)
      exact (Opcode.not_legalWord_iff hcode).mpr hfields hlegal

end Sys2Proof

namespace Sys2Proof.Machine

/-! ## The completion of an illegal word (R222, R228) -/

theorem completeWord_of_illegal {w : Word} (h : ∀ i, decode w ≠ .ok i) (s : State) :
    completeWord w s = .next (s.raise .illegalCmd) := by
  unfold completeWord
  cases hdec : decode w with
  | ok i => exact absurd hdec (h i)
  | error _ => rfl

theorem step_of_illegalWord {s : State} {w : Word} (hseq : s.sequencerNext) (hgen : s.gen = false)
    (hpend : s.pend = some w) (h : ∀ i, decode w ≠ .ok i) :
    step s = .next { s.popTurn.withError 1 with pend := none } := by
  calc step s
    _ = sequencerTurn s.popTurn := step_of_sequencerNext hseq
    _ = completeWord w s.popTurn := sequencerTurn_of_pend hgen hpend
    _ = .next (s.popTurn.raise .illegalCmd) := completeWord_of_illegal h _
    _ = .next { s.popTurn.withError 1 with pend := none } := congrArg _ (State.raise_eq_withError ..)

/-! ## The statement -/

/-- Settles O7: the completion of an illegal word is the abort with code 1, and a word is illegal when it is a legal
word of no operation, which comes down to the operation that OP names, if any. -/
theorem illegalWordIsAborted : Obligations.IllegalWordIsAborted :=
  ⟨fun _ _ => step_of_illegalWord, fun w => (forall_decode_ne_ok_iff w).trans (forall_not_legalWord_iff w)⟩

end Sys2Proof.Machine
end

section
/-!
SUPPORT. Reset and the end of generation (70_reset_and_hazards.md): the `complete` step that ends generation, the STATUS
word of an idle block that is ready and has no schedule and no error, and the statement, settled from both.
-/

namespace Sys2Proof

theorem Block.ofHex_zero : Block.ofHex 0 = Block.zero := by decide

end Sys2Proof

namespace Sys2Proof.Machine

/-- With GEN = 1 the `complete` step is the end of generation (R151). -/
theorem step_of_generation {s : State} (hseq : s.sequencerNext) (hgen : s.gen = true) :
    step s = .next s.popTurn.endGeneration :=
  (step_of_sequencerNext hseq).trans (sequencerTurn_of_gen hgen)

theorem State.endGeneration_busy {s : State} (hpend : s.pend = none) : s.endGeneration.busy = false := by
  simp [State.busy_eq_false_iff, hpend]

/-- R32: of the STATUS fields only SBRDY is set. -/
theorem State.status_of_ready {s : State} (hbusy : s.busy = false) (hsbrdy : s.sbrdy = true) (hksv : s.ksv = false)
    (herr : s.err = false) (hcode : s.errcode = 0) : s.status = 0x00000002 := by
  simp [State.status, hbusy, hsbrdy, hksv, herr, hcode]

/-- Settles O12: at reset the sequencer moves and GEN = 1, so the step is the end of generation, which sets SBRDY,
clears GEN and leaves ST, KEY, GFR and the flags at their reset values; BUSY and STATUS follow from these. -/
theorem blockIsReadyAfterGeneration : Obligations.BlockIsReadyAfterGeneration := by
  have hstep : step State.reset = .next State.reset.popTurn.endGeneration := step_of_generation (.inl rfl) rfl
  have hbusy : State.reset.popTurn.endGeneration.busy = false := State.endGeneration_busy rfl
  have hstatus : State.reset.popTurn.endGeneration.status = 0x00000002 := State.status_of_ready hbusy rfl rfl rfl rfl
  exact ⟨rfl, rfl, rfl, _, hstep, rfl, hbusy, rfl, rfl, rfl, rfl, Block.ofHex_zero.symm, Block.ofHex_zero.symm,
    rfl, hstatus⟩

end Sys2Proof.Machine
end

section
/-!
SUPPORT. The assembler and the reserved opcodes (30_encoding.md sections 2 and 3): what the checks of a line accept and
what its command is, and that no operation's number lies in a reserved range; then the statements, settled from them.
-/

-- Proofs are elaborated in order, for the reason given under "Rounds and blocks" above.
set_option deprecated.oldSectionVars true

namespace Sys2Proof

/-! ## The assembler's checks (R78) -/

theorem AsmLine.check_eq_none_iff (l : AsmLine) :
    l.check = none ↔ l.operands.length = l.op.arity ∧ ∀ n ∈ l.operands, n ≤ 255 := by
  have hrange : l.operands.all (· < 256) = true ↔ ∀ n ∈ l.operands, n ≤ 255 := by
    simp only [List.all_eq_true, decide_eq_true_eq, Nat.lt_succ_iff]
  unfold AsmLine.check
  split_ifs with hmissing hextra hall
  · exact iff_of_false nofun fun ⟨hlen, _⟩ => by omega
  · exact iff_of_false nofun fun ⟨hlen, _⟩ => by omega
  · exact iff_of_true rfl ⟨by omega, hrange.mp hall⟩
  · exact iff_of_false nofun fun ⟨_, hle⟩ => hall (hrange.mpr hle)

theorem AsmLine.wellFormed_iff (l : AsmLine) : l.wellFormed = true ↔ l.check = none := Option.isNone_iff_eq_none

/-- A line has a command exactly when its checks pass, and then the command of its operation and operands. -/
theorem AsmLine.toInstr_eq_ok_iff (l : AsmLine) (i : Instr) : l.toInstr = .ok i ↔ l.check = none ∧
    l.op.instr (BitVec.ofNat 8 (l.operands.getD 0 0)) (BitVec.ofNat 8 (l.operands.getD 1 0)) = i := by
  unfold AsmLine.toInstr
  cases l.check with
  | some e => exact iff_of_false nofun fun ⟨h, _⟩ => nomatch h
  | none => rw [Except.ok.injEq]; exact (and_iff_right rfl).symm

/-! ## Operands that an operation does not use (R74) -/

theorem Opcode.arity_of_not_usesA {op : Opcode} (h : op.usesA = false) : op.arity ≤ 0 := by
  revert h; cases op <;> decide

theorem Opcode.arity_of_not_usesB {op : Opcode} (h : op.usesB = false) : op.arity ≤ 1 := by
  revert h; cases op <;> decide

/-- An operand that is not written counts as 0. -/
theorem ofNat_getD_of_length_le {ns : List Nat} {n : Nat} (h : ns.length ≤ n) : BitVec.ofNat 8 (ns.getD n 0) = 0 := by
  rw [List.getD_eq_default _ _ h]; rfl

/-! ## Reserved opcodes (R76) -/

/-- The six reserved ranges of OP. -/
def InReservedRange (n : Nat) : Prop :=
  (0x02 ≤ n ∧ n ≤ 0x07) ∨ (0x0d ≤ n ∧ n ≤ 0x0f) ∨ (0x12 ≤ n ∧ n ≤ 0x17) ∨ (0x19 ≤ n ∧ n ≤ 0x1f) ∨
  (0x2c ≤ n ∧ n ≤ 0x2f) ∨ (0x32 ≤ n ∧ n ≤ 0xff)

theorem Opcode.code_not_inReservedRange (op : Opcode) : ¬ InReservedRange op.code.toNat := by
  unfold InReservedRange
  cases op <;> decide

theorem decode_ne_ok_of_reserved {w : Word} (h : InReservedRange (fieldOp w).toNat) (i : Instr) : decode w ≠ .ok i := by
  refine (forall_decode_ne_ok_iff w).mpr (fun op hlegal => ?_) i
  exact op.code_not_inReservedRange (hlegal.1 ▸ h)

end Sys2Proof

namespace Sys2Proof.Machine

/-! ## The statements -/

/-- Settles O1: the word of a command is a legal word of its operation, and holds its operands. -/
theorem decodeInvertsEncode : Obligations.DecodeInvertsEncode := decode_encode

/-- Settles O8: a reserved OP is no operation's number, so the word is illegal and its completion is the abort. -/
theorem reservedOpcodesAreIllegal : Obligations.ReservedOpcodesAreIllegal :=
  fun _ _ hseq hgen hpend hop => step_of_illegalWord hseq hgen hpend (decode_ne_ok_of_reserved hop)

/-- Settles O5: the checks leave exactly as many operands as the operation uses, so that a field without an operand is
0 in the line's command and in its word. -/
theorem assemblerChecksOperands : Obligations.AssemblerChecksOperands := by
  refine ⟨fun l => l.wellFormed_iff.trans l.check_eq_none_iff, fun l => ?_, fun op ns i h => ?_⟩
  · simp only [l.wellFormed_iff, l.toInstr_eq_ok_iff, exists_and_left, exists_eq', and_true]
  · obtain ⟨hcheck, rfl⟩ := (AsmLine.toInstr_eq_ok_iff _ i).mp h
    obtain ⟨hlen, -⟩ := (AsmLine.check_eq_none_iff _).mp hcheck
    have ha : op.usesA = false → BitVec.ofNat 8 (ns.getD 0 0) = 0 := fun hop =>
      ofNat_getD_of_length_le (hlen.trans_le (Opcode.arity_of_not_usesA hop))
    have hb : op.usesB = false → BitVec.ofNat 8 (ns.getD 1 0) = 0 := fun hop =>
      ofNat_getD_of_length_le (hlen.trans_le (Opcode.arity_of_not_usesB hop))
    rw [encode, Opcode.opcode_instr, Opcode.operandA_instr, Opcode.operandB_instr, operand_eq_field ha,
      operand_eq_field hb]

end Sys2Proof.Machine
end

section
/-!
SUPPORT. The invariant (10_state.md, 60_exceptions.md section 1): one rule per operation that changes the state, hence
one for each kind of turn; the steps and runs of a block that has it never stop; then the statements, settled from these.
-/

-- Proofs are elaborated in order, for the reason given under "Rounds and blocks" above.
set_option deprecated.oldSectionVars true

namespace Sys2Proof.Machine

/-! ## One rule per operation -/

section Operations

variable {s : State} (hinv : s.Inv)
include hinv

theorem State.Inv.popTurn : s.popTurn.Inv := { hinv with }

theorem State.Inv.observe (v : Word) : (s.observe v).Inv := { hinv with }

theorem State.Inv.observeFree : s.observeFree.Inv := { hinv with }

theorem State.Inv.setSt (v : Block) : (s.setSt v).Inv := { hinv with }

theorem State.Inv.setGfr (v : Byte) : (s.setGfr v).Inv := { hinv with }

theorem State.Inv.writeSt (k : Fin 4) (v : Word) : (s.writeSt k v).Inv := { hinv with }

theorem State.Inv.retire : s.retire.Inv := { hinv with gen_pend := fun _ => rfl }

theorem State.Inv.clearError : s.clearError.Inv := { hinv with no_error := fun _ => rfl, error_code := nofun }

theorem State.Inv.withError {c : BitVec 4} (hc : 1 ≤ c.toNat ∧ c.toNat ≤ 6) : (s.withError c).Inv :=
  { hinv with
    no_error := nofun
    error_code := fun _ => by
      unfold State.withError
      cases herr : s.err with
      | true => exact hinv.error_code herr
      | false => exact hc }

theorem State.Inv.recordError (c : ErrorCode) : (s.recordError c).Inv := by
  rw [State.recordError_eq_withError]
  exact hinv.withError (by cases c <;> decide)

theorem State.Inv.raise (c : ErrorCode) : (s.raise c).Inv := (hinv.recordError c).retire

/-- A word in PEND is kept out while generation is in progress. -/
theorem State.Inv.issue (hgen : s.gen = false) (w : Word) : (s.issue w).Inv :=
  { hinv with gen_pend := fun h => absurd (hgen.symm.trans h) nofun }

/-- KSV is cleared, so nothing is said of RKS under the new key. -/
theorem State.Inv.writeKey (k : Fin 4) (v : Word) : (s.writeKey k v).Inv :=
  { hinv with ksv_sbrdy := nofun, ksv_schedule := nofun }

theorem State.Inv.writeRounds (v : Word) : (s.writeRounds v).Inv := by
  by_cases hv : 1 ≤ v.toNat ∧ v.toNat ≤ Config.rmax
  · rw [State.writeRounds_of_legal s v hv]
    exact { hinv with rounds_range := hv, ksv_sbrdy := nofun, ksv_schedule := nofun }
  · rw [State.writeRounds_of_illegal s v hv]
    exact hinv.recordError .badRounds

/-- Once generation has ended the schedule is the expansion by the listed table. -/
theorem State.Inv.loadSchedule (hgen : s.gen = false) : s.loadSchedule.Inv := by
  have hready : s.sbrdy = true := by rw [hinv.sbrdy_gen, hgen]; rfl
  have hfits : s.rounds + 1 ≤ s.rks.length := hinv.rks_length ▸ Nat.succ_le_succ hinv.rounds_range.2
  exact { hinv with
    rks_length := (s.length_loadSchedule hfits).trans hinv.rks_length
    ksv_sbrdy := fun _ => hready
    ksv_schedule := fun _ => (hinv.tables hready).1 ▸ s.take_loadSchedule }

theorem State.Inv.endGeneration : s.endGeneration.Inv :=
  { hinv with
    sbrdy_gen := rfl
    gen_pend := nofun
    tables := fun _ => ⟨rfl, rfl⟩
    ksv_sbrdy := fun _ => rfl }

omit hinv in
theorem State.reset_inv : State.reset.Inv where
  sbrdy_gen := rfl
  gen_pend _ := rfl
  tables := nofun
  rounds_range := ⟨by decide, Config.rmax_ge⟩
  rks_length := List.length_replicate
  ksv_sbrdy := nofun
  ksv_schedule := nofun
  no_error _ := rfl
  error_code := nofun

omit hinv in
/-- The turns and what the host has read are no part of the invariant. -/
theorem State.resetEvent_inv (s : State) : s.resetEvent.Inv := { State.reset_inv with }

end Operations

/-! ## One rule per turn -/

theorem exec_keeps_inv {i : Instr} {s t : State} (hinv : s.Inv) (hgen : s.gen = false) (h : exec i s = .next t) :
    t.Inv := by
  rcases exec_cases h with ⟨-, rfl⟩ | ⟨-, rfl⟩ | ⟨-, v, rfl⟩ | ⟨-, rfl⟩ | ⟨-, v, rfl⟩ |
    ⟨-, ⟨c, -, rfl⟩ | ⟨_, v, -, -, rfl⟩⟩ | ⟨-, v, rfl⟩
  · exact hinv.retire
  · exact hinv.clearError.retire
  · exact (hinv.setGfr v).retire
  · exact (hinv.loadSchedule hgen).retire
  · exact (hinv.setSt v).retire
  · exact hinv.raise c
  · exact (hinv.setSt v).retire
  · exact ((hinv.loadSchedule hgen).setSt v).retire

theorem sequencerTurn_keeps_inv {s t : State} (hinv : s.Inv) (h : sequencerTurn s = .next t) : t.Inv := by
  rcases sequencerTurn_cases h with ⟨-, rfl⟩ | ⟨-, -, rfl⟩ | ⟨_, _, hgen, -, -, hexec⟩ | ⟨_, _, -, -, -, rfl⟩
  · exact hinv.endGeneration
  · exact hinv
  · exact exec_keeps_inv hinv hgen hexec
  · exact hinv.raise .illegalCmd

theorem memRead_keeps_inv {s : State} (hinv : s.Inv) (off : Offset) (size : Nat) : (memRead off size s).Inv := by
  rcases memRead_cases off size s with ⟨-, h⟩ | ⟨_, -, -, -, h⟩ | ⟨r, -, -, h⟩ <;> rw [h]
  · exact (hinv.recordError .bus).observe 0
  · exact hinv.observeFree
  · exact hinv.observe _

/-- A write of CMD is accepted only while BUSY = 0, so not while generation is in progress. -/
theorem writeReg_keeps_inv {s : State} (hinv : s.Inv) {r : WindowReg} (h : r.busyProtected = false ∨ s.busy = false)
    (v : Word) : (s.writeReg r v).Inv := by
  cases r with
  | cmd =>
    have hidle : s.busy = false := h.resolve_left nofun
    exact hinv.issue ((State.busy_eq_false_iff s).mp hidle).1 v
  | status => exact hinv
  | rounds => exact hinv.writeRounds v
  | gfr => exact hinv
  | st k => exact hinv.writeSt k v
  | key k => exact hinv.writeKey k v

theorem memWrite_keeps_inv {s : State} (hinv : s.Inv) (off : Offset) (size : Nat) (v : Word) :
    (memWrite off size v s).Inv := by
  rcases memWrite_cases off size v s with ⟨-, h⟩ | ⟨_, -, -, -, h⟩ | ⟨r, -, hr, h⟩ <;> rw [h]
  · exact hinv.recordError .bus
  · exact hinv.recordError .busyWrite
  · exact writeReg_keeps_inv hinv hr v

theorem step_keeps_inv {s t : State} (hinv : s.Inv) (h : step s = .next t) : t.Inv := by
  rcases s.turn_cases with hs | ⟨off, size, rest, hs⟩ | ⟨off, size, v, rest, hs⟩ | ⟨rest, hs⟩
  · rw [step_of_sequencerNext hs] at h
    exact sequencerTurn_keeps_inv hinv.popTurn h
  · cases (step_of_read hs).symm.trans h
    exact memRead_keeps_inv hinv.popTurn off size
  · cases (step_of_write hs).symm.trans h
    exact memWrite_keeps_inv hinv.popTurn off size v
  · cases (step_of_reset hs).symm.trans h
    exact s.popTurn.resetEvent_inv

/-! ## Steps and runs never stop -/

/-- The entry of an index that has passed the checks of R178 is there. -/
theorem exec_next_of_inv {s : State} (hinv : s.Inv) (i : Instr) : ∃ t, exec i s = .next t := by
  cases hexec : exec i s with
  | next t => exact ⟨t, rfl⟩
  | fault f =>
    obtain ⟨hchecks, hentry⟩ := exec_fault hexec
    obtain ⟨hksv, hk⟩ := (s.requireRk_eq_none_iff _).mp hchecks
    exact absurd ((hinv.getElem?_rks hksv hk).symm.trans hentry) nofun
  | refused r => exact absurd hexec (exec_not_refused i s r)

theorem sequencerTurn_next_of_inv {s : State} (hinv : s.Inv) : ∃ t, sequencerTurn s = .next t := by
  unfold sequencerTurn completeWord
  split_ifs
  · exact ⟨_, rfl⟩
  · split
    · exact ⟨_, rfl⟩
    · split
      · exact exec_next_of_inv hinv _
      · exact ⟨_, rfl⟩

theorem step_next_of_inv {s : State} (hinv : s.Inv) : ∃ t, step s = .next t := by
  rcases s.turn_cases with hs | ⟨_, _, _, hs⟩ | ⟨_, _, _, _, hs⟩ | ⟨_, hs⟩
  · rw [step_of_sequencerNext hs]
    exact sequencerTurn_next_of_inv hinv.popTurn
  · exact ⟨_, step_of_read hs⟩
  · exact ⟨_, step_of_write hs⟩
  · exact ⟨_, step_of_reset hs⟩

/-! ## The statements -/

/-- Settles O13: each field is at its reset value. -/
theorem resetMeetsInvariant : Obligations.ResetMeetsInvariant := State.reset_inv

/-- Settles O14: each kind of turn is made of operations that keep the invariant. -/
theorem stepKeepsInvariant : Obligations.StepKeepsInvariant := fun _ _ => step_keeps_inv

/-- Settles O15, by induction on the number of steps: a first step exists, and keeps the invariant for the others. -/
theorem runsNeverStopUnderInvariant : Obligations.RunsNeverStopUnderInvariant := by
  intro n
  induction n with
  | zero => exact fun s hinv => ⟨s, rfl, hinv⟩
  | succ n ih =>
    intro s hinv
    obtain ⟨u, hstep⟩ := step_next_of_inv hinv
    obtain ⟨t, hrun, ht⟩ := ih u (step_keeps_inv hinv hstep)
    exact ⟨t, (run_next core hstep).trans hrun, ht⟩

end Sys2Proof.Machine
end

section
/-!
SUPPORT. Frames (10_state.md section 3): the entries of RKS that loading the schedule leaves alone; what each command, each
host access and so each step leaves unchanged; then the statements, settled from these.
-/

-- Proofs are elaborated in order, for the reason given under "Rounds and blocks" above.
set_option deprecated.oldSectionVars true

namespace Sys2Proof

/-! ## Operations and registers by name -/

theorem Opcode.not_mem_of_mem {op : Opcode} {l l' : List Opcode} (h : op ∈ l) (hdisjoint : ∀ x ∈ l, x ∉ l') :
    op ∉ l' := hdisjoint op h

/-- The operations of the commands that load the schedule have no operands. -/
theorem Instr.eq_of_opcode_mem {i : Instr} (h : i.opcode ∈ [.keyexp, .enc, .dec]) :
    i = .keyexp ∨ i = .enc ∨ i = .dec := by
  revert h; cases i <;> simp [Instr.opcode]

theorem Instr.eq_clrerr_of_opcode {i : Instr} (h : i.opcode = .clrerr) : i = .clrerr := by
  revert h; cases i <;> simp [Instr.opcode]

/-- The offset of a register (R42). -/
def WindowReg.offset : WindowReg → Offset
  | .cmd => 0x00
  | .status => 0x04
  | .rounds => 0x08
  | .gfr => 0x0c
  | .st k => BitVec.ofNat 6 (0x10 + 4 * k.val)
  | .key k => BitVec.ofNat 6 (0x20 + 4 * k.val)

theorem windowReg_eq_some_iff (off : Offset) (r : WindowReg) : windowReg off = some r ↔ off = r.offset := by
  constructor
  · unfold windowReg
    split
    case h_13 => nofun
    all_goals
      next hoff => rintro ⟨⟩; exact BitVec.eq_of_toNat_eq hoff
  · rintro rfl
    cases r with
    | cmd | status | rounds | gfr => rfl
    | st k => exact windowReg_st k
    | key k => exact windowReg_key k

end Sys2Proof

namespace Sys2Proof.Machine

/-! ## The schedule in RKS (R27, R164) -/

theorem State.getElem?_loadSchedule_of_le (s : State) {k : Nat} (h : k ≤ s.rounds) :
    s.loadSchedule.rks[k]? = (expand s.sbox s.key s.rounds)[k]? :=
  List.getElem?_append_left (by rw [length_expand]; omega)

theorem State.getElem?_loadSchedule_of_gt (s : State) {k : Nat} (h : s.rounds < k) :
    s.loadSchedule.rks[k]? = s.rks[k]? := by
  rw [State.loadSchedule_rks, List.getElem?_append_right (by rw [length_expand]; omega), List.getElem?_drop,
    length_expand, Nat.add_sub_cancel' h]

/-! ## Commands -/

section Commands

variable {i : Instr} {s t : State} (h : exec i s = .next t)
include h

/-- What no command writes, and that every command empties PEND (R23). -/
theorem exec_frame : t.key = s.key ∧ t.rounds = s.rounds ∧ t.sbox = s.sbox ∧ t.isbox = s.isbox ∧
    t.sbrdy = s.sbrdy ∧ t.gen = s.gen ∧ t.reads = s.reads ∧ t.draws = s.draws ∧ t.pend = none := by
  rcases exec_cases h with ⟨-, rfl⟩ | ⟨-, rfl⟩ | ⟨-, _, rfl⟩ | ⟨-, rfl⟩ | ⟨-, _, rfl⟩ |
    ⟨-, ⟨_, -, rfl⟩ | ⟨_, _, -, -, rfl⟩⟩ | ⟨-, _, rfl⟩ <;> simp

theorem exec_gfr (hop : i.opcode ∉ [.gfadd, .gfmul, .gfinv, .gfpow, .gfaff, .sbox, .isbox]) : t.gfr = s.gfr := by
  rcases exec_cases h with ⟨-, rfl⟩ | ⟨-, rfl⟩ | ⟨hgfr, -⟩ | ⟨-, rfl⟩ | ⟨-, _, rfl⟩ |
    ⟨-, ⟨c, -, rfl⟩ | ⟨_, _, -, -, rfl⟩⟩ | ⟨-, _, rfl⟩
  · rfl
  · rfl
  · exact absurd hgfr hop
  · rfl
  · rfl
  · exact s.raise_gfr c
  · rfl
  · rfl

theorem exec_st (hop : i.opcode ∈ [.nop, .clrerr, .gfadd, .gfmul, .gfinv, .gfpow, .gfaff, .sbox, .isbox, .keyexp]) :
    t.st = s.st := by
  rcases exec_cases h with ⟨-, rfl⟩ | ⟨-, rfl⟩ | ⟨-, _, rfl⟩ | ⟨-, rfl⟩ | ⟨hst, -⟩ | ⟨hst, -⟩ | ⟨hst, -⟩
  · rfl
  · rfl
  · rfl
  · rfl
  all_goals exact absurd hop (Opcode.not_mem_of_mem hst (by decide))

theorem exec_schedule (hop : i.opcode ∉ [.keyexp, .enc, .dec]) : t.rks = s.rks ∧ t.ksv = s.ksv := by
  rcases exec_cases h with ⟨-, rfl⟩ | ⟨-, rfl⟩ | ⟨-, _, rfl⟩ | ⟨hload, -⟩ | ⟨-, _, rfl⟩ |
    ⟨-, ⟨c, -, rfl⟩ | ⟨_, _, -, -, rfl⟩⟩ | ⟨hload, -⟩
  · exact ⟨rfl, rfl⟩
  · exact ⟨rfl, rfl⟩
  · exact ⟨rfl, rfl⟩
  · exact absurd (List.mem_cons.mpr (.inl hload)) hop
  · exact ⟨rfl, rfl⟩
  · exact ⟨s.raise_rks c, s.raise_ksv c⟩
  · exact ⟨rfl, rfl⟩
  · exact absurd (List.mem_cons_of_mem _ hload) hop

/-- Loading the schedule does not reach the entries above ROUNDS (R27). -/
theorem exec_rks_above {k : Nat} (hk : s.rounds < k) : t.rks[k]? = s.rks[k]? := by
  rcases exec_cases h with ⟨-, rfl⟩ | ⟨-, rfl⟩ | ⟨-, _, rfl⟩ | ⟨-, rfl⟩ | ⟨-, _, rfl⟩ |
    ⟨-, ⟨c, -, rfl⟩ | ⟨_, _, -, -, rfl⟩⟩ | ⟨-, _, rfl⟩
  · rfl
  · rfl
  · rfl
  · exact s.getElem?_loadSchedule_of_gt hk
  · rfl
  · rw [s.raise_rks]
  · rfl
  · exact s.getElem?_loadSchedule_of_gt hk

theorem exec_errorRecord (hop : i.opcode ∉ [.clrerr, .addrk, .round, .finalround, .invround, .invfinalround]) :
    t.err = s.err ∧ t.errcode = s.errcode := by
  rcases exec_cases h with ⟨-, rfl⟩ | ⟨herr, -⟩ | ⟨-, _, rfl⟩ | ⟨-, rfl⟩ | ⟨-, _, rfl⟩ | ⟨herr, -⟩ | ⟨-, _, rfl⟩
  · exact ⟨rfl, rfl⟩
  · exact absurd (List.mem_cons.mpr (.inl herr)) hop
  · exact ⟨rfl, rfl⟩
  · exact ⟨rfl, rfl⟩
  · exact ⟨rfl, rfl⟩
  · exact absurd (List.mem_cons_of_mem _ herr) hop
  · exact ⟨rfl, rfl⟩

/-- Only the three commands that load the schedule change KSV, and they set it (R28). -/
theorem exec_ksv_ne (hne : t.ksv ≠ s.ksv) : t.ksv = true ∧ (i = .keyexp ∨ i = .enc ∨ i = .dec) := by
  have hop : i.opcode ∈ [.keyexp, .enc, .dec] := by_contra fun hop => hne (exec_schedule h hop).2
  have hi := Instr.eq_of_opcode_mem hop
  refine ⟨?_, hi⟩
  rcases hi with rfl | rfl | rfl <;> cases h <;> rfl

/-- With an error recorded, a command keeps the record, unless it is CLRERR (R33). -/
theorem exec_of_err (herr : s.err = true) :
    (t.err = true ∧ t.errcode = s.errcode) ∨ (i = .clrerr ∧ t.err = false ∧ t.errcode = 0) := by
  rcases exec_cases h with ⟨-, rfl⟩ | ⟨hop, rfl⟩ | ⟨-, _, rfl⟩ | ⟨-, rfl⟩ | ⟨-, _, rfl⟩ |
    ⟨-, ⟨c, -, rfl⟩ | ⟨_, _, -, -, rfl⟩⟩ | ⟨-, _, rfl⟩
  · exact .inl ⟨herr, rfl⟩
  · exact .inr ⟨Instr.eq_clrerr_of_opcode hop, rfl, rfl⟩
  · exact .inl ⟨herr, rfl⟩
  · exact .inl ⟨herr, rfl⟩
  · exact .inl ⟨herr, rfl⟩
  · exact .inl ⟨s.raise_err c, by rw [s.raise_errcode, if_pos herr]⟩
  · exact .inl ⟨herr, rfl⟩
  · exact .inl ⟨herr, rfl⟩

end Commands

/-! ## Host accesses -/

/-- A read changes the error record and the model's own fields alone (R48, R57). -/
theorem memRead_frame (off : Offset) (size : Nat) (s : State) : ∃ err errcode reads draws,
    memRead off size s = { s with err := err, errcode := errcode, reads := reads, draws := draws } := by
  rcases memRead_cases off size s with ⟨-, h⟩ | ⟨_, -, -, -, h⟩ | ⟨_, -, -, h⟩
  · rw [h, State.recordError_eq_withError]; exact ⟨_, _, _, _, rfl⟩
  · exact ⟨_, _, _, _, h⟩
  · exact ⟨_, _, _, _, h⟩

theorem writeReg_frame (s : State) (r : WindowReg) (v : Word) : ∃ st key ksv rounds pend err errcode,
    s.writeReg r v = { s with
      st := st, key := key, ksv := ksv, rounds := rounds, pend := pend, err := err, errcode := errcode } := by
  cases r with
  | rounds =>
    by_cases hv : 1 ≤ v.toNat ∧ v.toNat ≤ Config.rmax
    · exact ⟨_, _, _, _, _, _, _, s.writeRounds_of_legal v hv⟩
    · exact ⟨_, _, _, _, _, _, _, (s.writeRounds_of_illegal v hv).trans (s.recordError_eq_withError _)⟩
  | cmd | status | gfr | st | key => exact ⟨_, _, _, _, _, _, _, rfl⟩

/-- A write reaches neither the tables nor RKS, GFR, SBRDY and GEN (R49). -/
theorem memWrite_frame (off : Offset) (size : Nat) (v : Word) (s : State) : ∃ st key ksv rounds pend err errcode,
    memWrite off size v s = { s with
      st := st, key := key, ksv := ksv, rounds := rounds, pend := pend, err := err, errcode := errcode } := by
  rcases memWrite_cases off size v s with ⟨-, h⟩ | ⟨_, -, -, -, h⟩ | ⟨r, -, -, h⟩
  · exact ⟨_, _, _, _, _, _, _, h.trans (s.recordError_eq_withError _)⟩
  · exact ⟨_, _, _, _, _, _, _, h.trans (s.recordError_eq_withError _)⟩
  · rw [h]; exact writeReg_frame s r v

/-- A write keeps KSV and ROUNDS, or clears KSV: an accepted write of ROUNDS with a legal value, or of KEY (R28). -/
theorem memWrite_ksv (off : Offset) (size : Nat) (v : Word) (s : State) :
    ((memWrite off size v s).ksv = s.ksv ∧ (memWrite off size v s).rounds = s.rounds) ∨
    ((memWrite off size v s).ksv = false ∧ s.busy = false ∧ ∃ r, accessReg off size = some r ∧
      ((r = .rounds ∧ 1 ≤ v.toNat ∧ v.toNat ≤ Config.rmax) ∨ ∃ k, r = .key k)) := by
  rcases memWrite_cases off size v s with ⟨-, h⟩ | ⟨_, -, -, -, h⟩ | ⟨r, hreg, hr, h⟩ <;> rw [h]
  · exact .inl ⟨s.recordError_ksv _, s.recordError_rounds _⟩
  · exact .inl ⟨s.recordError_ksv _, s.recordError_rounds _⟩
  · cases r with
    | cmd | status | gfr | st => exact .inl ⟨rfl, rfl⟩
    | key k => exact .inr ⟨rfl, hr.resolve_left nofun, .key k, hreg, .inr ⟨k, rfl⟩⟩
    | rounds =>
      rw [State.writeReg]
      by_cases hv : 1 ≤ v.toNat ∧ v.toNat ≤ Config.rmax
      · rw [s.writeRounds_of_legal v hv]
        exact .inr ⟨rfl, hr.resolve_left nofun, .rounds, hreg, .inl ⟨rfl, hv⟩⟩
      · rw [s.writeRounds_of_illegal v hv]
        exact .inl ⟨s.recordError_ksv _, s.recordError_rounds _⟩

/-- With an error recorded, another one leaves no trace (R33). -/
theorem State.recordError_of_err {s : State} (herr : s.err = true) (c : ErrorCode) : s.recordError c = s := if_pos herr

theorem memRead_of_err {s : State} (herr : s.err = true) (off : Offset) (size : Nat) :
    (memRead off size s).err = true ∧ (memRead off size s).errcode = s.errcode := by
  rcases memRead_cases off size s with ⟨-, h⟩ | ⟨_, -, -, -, h⟩ | ⟨_, -, -, h⟩ <;> rw [h]
  · rw [State.recordError_of_err herr]; exact ⟨herr, rfl⟩
  · exact ⟨herr, rfl⟩
  · exact ⟨herr, rfl⟩

theorem memWrite_of_err {s : State} (herr : s.err = true) (off : Offset) (size : Nat) (v : Word) :
    (memWrite off size v s).err = true ∧ (memWrite off size v s).errcode = s.errcode := by
  rcases memWrite_cases off size v s with ⟨-, h⟩ | ⟨_, -, -, -, h⟩ | ⟨r, -, -, h⟩ <;> rw [h]
  · rw [State.recordError_of_err herr]; exact ⟨herr, rfl⟩
  · rw [State.recordError_of_err herr]; exact ⟨herr, rfl⟩
  · cases r with
    | cmd | status | gfr | st | key => exact ⟨herr, rfl⟩
    | rounds =>
      rw [State.writeReg, State.writeRounds, State.recordError_of_err herr]
      split_ifs <;> exact ⟨herr, rfl⟩

/-! ## The statements -/

/-- Settles O22: the one command of each shape of effect that could write a register is outside the clause's list. -/
theorem commandsWriteOnlyTheirRegisters : Obligations.CommandsWriteOnlyTheirRegisters := by
  intro i s t h
  obtain ⟨hkey, hrounds, hsbox, hisbox, hsbrdy, hgen, hreads, hdraws, hpend⟩ := exec_frame h
  obtain ⟨hturns, hagain⟩ := exec_turns h
  exact ⟨hkey, hrounds, hsbox, hisbox, hsbrdy, hgen, hturns, hagain, hreads, hdraws, hpend, exec_gfr h, exec_st h,
    exec_schedule h, fun _ => exec_rks_above h, exec_errorRecord h⟩

/-- Settles O17: neither a command nor a host access writes a table. -/
theorem tablesChangeOnlyByGenerationOrReset : Obligations.TablesChangeOnlyByGenerationOrReset := by
  intro s t h hne
  have contra : ¬(t.sbox = s.sbox ∧ t.isbox = s.isbox) := fun ⟨hsbox, hisbox⟩ => hne.elim (· hsbox) (· hisbox)
  rcases s.turn_cases with hs | ⟨off, size, rest, hs⟩ | ⟨off, size, v, rest, hs⟩ | ⟨rest, hs⟩
  · rw [step_of_sequencerNext hs] at h
    rcases sequencerTurn_cases h with ⟨hgen, -⟩ | ⟨-, -, rfl⟩ | ⟨_, _, -, -, -, hexec⟩ | ⟨_, _, -, -, -, rfl⟩
    · exact .inl ⟨hs, hgen⟩
    · exact absurd ⟨rfl, rfl⟩ contra
    · obtain ⟨-, -, hsbox, hisbox, -⟩ := exec_frame hexec
      exact absurd ⟨hsbox, hisbox⟩ contra
    · exact absurd ⟨State.raise_sbox _ _, State.raise_isbox _ _⟩ contra
  · obtain ⟨_, _, _, _, hframe⟩ := memRead_frame off size s.popTurn
    cases ((step_of_read hs).trans (congrArg _ hframe)).symm.trans h
    exact absurd ⟨rfl, rfl⟩ contra
  · obtain ⟨_, _, _, _, _, _, _, hframe⟩ := memWrite_frame off size v s.popTurn
    cases ((step_of_write hs).trans (congrArg _ hframe)).symm.trans h
    exact absurd ⟨rfl, rfl⟩ contra
  · exact .inr ⟨rest, hs⟩

/-- The offset of an accepted write that clears KSV, and its value at ROUNDS. -/
theorem offset_of_ksv_write {off : Offset} {v : Word} {r : WindowReg} (hoff : windowReg off = some r)
    (hr : (r = .rounds ∧ 1 ≤ v.toNat ∧ v.toNat ≤ Config.rmax) ∨ ∃ k, r = .key k) :
    off ∈ [0x08#6, 0x20#6, 0x24#6, 0x28#6, 0x2c#6] ∧ (off = 0x08#6 → 1 ≤ v.toNat ∧ v.toNat ≤ Config.rmax) := by
  rw [windowReg_eq_some_iff] at hoff
  subst hoff
  rcases hr with ⟨rfl, hv⟩ | ⟨k, rfl⟩
  · exact ⟨by decide, fun _ => hv⟩
  · have hkey : (WindowReg.key k).offset ∈ [0x20#6, 0x24#6, 0x28#6, 0x2c#6] := by revert k; decide
    have hne : ∀ x ∈ [0x20#6, 0x24#6, 0x28#6, 0x2c#6], x ≠ 0x08#6 := by decide
    exact ⟨List.mem_cons_of_mem _ hkey, fun h => absurd h (hne _ hkey)⟩

/-- Settles O16: of the commands the three that load the schedule change KSV, and of the host's accesses the accepted
writes of KEY and of a legal ROUNDS. -/
theorem onlyTheNamedEventsChangeKsv : Obligations.OnlyTheNamedEventsChangeKsv := by
  intro s t h hne
  rcases s.turn_cases with hs | ⟨off, size, rest, hs⟩ | ⟨off, size, v, rest, hs⟩ | ⟨rest, hs⟩
  · rw [step_of_sequencerNext hs] at h
    rcases sequencerTurn_cases h with ⟨-, rfl⟩ | ⟨-, -, rfl⟩ | ⟨w, i, hgen, hpend, hdec, hexec⟩ | ⟨_, _, -, -, -, rfl⟩
    · exact absurd rfl hne
    · exact absurd rfl hne
    · obtain ⟨hset, hi⟩ := exec_ksv_ne hexec hne
      exact .inl ⟨hset, hs, hgen, w, i, hpend, hdec, hi⟩
    · exact absurd (State.raise_ksv _ _) hne
  · obtain ⟨_, _, _, _, hframe⟩ := memRead_frame off size s.popTurn
    cases ((step_of_read hs).trans (congrArg _ hframe)).symm.trans h
    exact absurd rfl hne
  · cases (step_of_write hs).symm.trans h
    rcases memWrite_ksv off size v s.popTurn with ⟨hsame, -⟩ | ⟨hclear, hbusy, r, hreg, hr⟩
    · exact absurd hsame hne
    · obtain ⟨rfl, hoff⟩ := (accessReg_eq_some_iff off size r).mp hreg
      exact .inr ⟨hclear, .inr ⟨off, v, rest, hs, hbusy, offset_of_ksv_write hoff hr⟩⟩
  · cases (step_of_reset hs).symm.trans h
    exact .inr ⟨rfl, .inl ⟨rest, hs⟩⟩

/-- Settles O18: recording an error over another one changes nothing, and the one word of CLRERR is 0x00000001. -/
theorem firstErrorIsKept : Obligations.FirstErrorIsKept := by
  intro s t h herr
  rcases s.turn_cases with hs | ⟨off, size, rest, hs⟩ | ⟨off, size, v, rest, hs⟩ | ⟨rest, hs⟩
  · rw [step_of_sequencerNext hs] at h
    rcases sequencerTurn_cases h with ⟨-, rfl⟩ | ⟨-, -, rfl⟩ | ⟨w, i, hgen, hpend, hdec, hexec⟩ | ⟨_, _, -, -, -, rfl⟩
    · exact .inl ⟨herr, rfl⟩
    · exact .inl ⟨herr, rfl⟩
    · rcases exec_of_err hexec herr with hkept | ⟨rfl, hclear⟩
      · exact .inl hkept
      · obtain rfl : w = 0x00000001 := (decode_eq_ok_iff_eq_encode w .clrerr).mp hdec
        exact .inr ⟨hclear.1, hclear.2, .inr ⟨hs, hgen, hpend⟩⟩
    · exact .inl ⟨State.raise_err _ _, (State.raise_errcode _ _).trans (if_pos herr)⟩
  · cases (step_of_read hs).symm.trans h
    exact .inl (memRead_of_err (s := s.popTurn) herr off size)
  · cases (step_of_write hs).symm.trans h
    exact .inl (memWrite_of_err (s := s.popTurn) herr off size v)
  · cases (step_of_reset hs).symm.trans h
    exact .inr ⟨rfl, rfl, .inl ⟨rest, hs⟩⟩

end Sys2Proof.Machine
end

section
/-!
SUPPORT. What is not observable (10_state.md section 7, 93_implementation_defined.md section 1): no host access looks at
RKS or at the tables, and a round-key command looks at no entry of RKS outside the valid schedule; so two states that
differ in what is hidden step to two such states; then the statements, settled from these.
-/

-- Proofs are elaborated in order, for the reason given under "Rounds and blocks" above.
set_option deprecated.oldSectionVars true

namespace Sys2Proof.Machine

/-! ## Host accesses do not look at RKS and the tables -/

/-- `s` with another round-key file and other tables. -/
def State.withHidden (s : State) (rks : List Block) (sbox isbox : Table) : State :=
  { s with rks := rks, sbox := sbox, isbox := isbox }

section Hidden

variable (s : State) (rks : List Block) (sbox isbox : Table)

theorem State.busy_withHidden : (s.withHidden rks sbox isbox).busy = s.busy := rfl

theorem State.window_withHidden (r : WindowReg) : (s.withHidden rks sbox isbox).window r = s.window r := by
  cases r <;> rfl

theorem State.recordError_withHidden (c : ErrorCode) :
    (s.withHidden rks sbox isbox).recordError c = (s.recordError c).withHidden rks sbox isbox := by
  rw [State.recordError_eq_withError, State.recordError_eq_withError]; rfl

theorem memRead_withHidden (off : Offset) (size : Nat) :
    memRead off size (s.withHidden rks sbox isbox) = (memRead off size s).withHidden rks sbox isbox := by
  simp only [memRead, State.busy_withHidden, State.window_withHidden, State.recordError_withHidden]
  split
  · rfl
  · split <;> rfl

theorem State.writeReg_withHidden (r : WindowReg) (v : Word) :
    (s.withHidden rks sbox isbox).writeReg r v = (s.writeReg r v).withHidden rks sbox isbox := by
  cases r with
  | cmd | status | gfr | st | key => rfl
  | rounds =>
    simp only [State.writeReg, State.writeRounds, State.recordError_withHidden]
    split <;> rfl

theorem memWrite_withHidden (off : Offset) (size : Nat) (v : Word) :
    memWrite off size v (s.withHidden rks sbox isbox) = (memWrite off size v s).withHidden rks sbox isbox := by
  simp only [memWrite, State.busy_withHidden, State.writeReg_withHidden, State.recordError_withHidden]
  split
  · rfl
  · split <;> rfl

end Hidden

section Frame

variable (off : Offset) (size : Nat) (v : Word) (s : State)

theorem memRead_sbrdy : (memRead off size s).sbrdy = s.sbrdy := by
  obtain ⟨_, _, _, _, h⟩ := memRead_frame off size s
  rw [h]

theorem memWrite_sbrdy : (memWrite off size v s).sbrdy = s.sbrdy := by
  obtain ⟨_, _, _, _, _, _, _, h⟩ := memWrite_frame off size v s
  rw [h]

theorem memRead_withRks (r : List Block) :
    memRead off size { s with rks := r } = { memRead off size s with rks := r } := by
  obtain ⟨_, _, _, _, h⟩ := memRead_frame off size s
  refine (memRead_withHidden s r s.sbox s.isbox off size).trans ?_
  rw [h]; rfl

theorem memWrite_withRks (r : List Block) :
    memWrite off size v { s with rks := r } = { memWrite off size v s with rks := r } := by
  obtain ⟨_, _, _, _, _, _, _, h⟩ := memWrite_frame off size v s
  refine (memWrite_withHidden s r s.sbox s.isbox off size v).trans ?_
  rw [h]; rfl

theorem memRead_withTables (a b : Table) :
    memRead off size { s with sbox := a, isbox := b } = { memRead off size s with sbox := a, isbox := b } := by
  obtain ⟨_, _, _, _, h⟩ := memRead_frame off size s
  refine (memRead_withHidden s s.rks a b off size).trans ?_
  rw [h]; rfl

theorem memWrite_withTables (a b : Table) :
    memWrite off size v { s with sbox := a, isbox := b } = { memWrite off size v s with sbox := a, isbox := b } := by
  obtain ⟨_, _, _, _, _, _, _, h⟩ := memWrite_frame off size v s
  refine (memWrite_withHidden s s.rks a b off size v).trans ?_
  rw [h]; rfl

end Frame

/-! ## Round-key files that agree on the valid schedule (R27, R28) -/

/-- The file `r` has the size of RKS, and while KSV = 1 the same entries 0..ROUNDS. -/
def State.AgreesWith (s : State) (r : List Block) : Prop :=
  r.length = s.rks.length ∧ (s.ksv = true → r.take (s.rounds + 1) = s.rks.take (s.rounds + 1))

/-- Both outcomes are next states, which differ in RKS alone, with files that agree. -/
def AgreeingNext (o o' : Host.Outcome State Fault Refusal) : Prop :=
  ∃ t r, o = .next t ∧ o' = .next { t with rks := r } ∧ t.AgreesWith r

section Agreement

variable {s : State} {r : List Block} (hagree : s.AgreesWith r)
include hagree

/-- Both files are loaded with the same schedule. -/
theorem State.AgreesWith.loadSchedule : s.loadSchedule.AgreesWith ({ s with rks := r } : State).loadSchedule.rks := by
  refine ⟨?_, fun _ => ?_⟩
  · simp only [State.loadSchedule_rks, List.length_append, List.length_drop, hagree.1]
  · exact (State.take_loadSchedule { s with rks := r }).trans s.take_loadSchedule.symm

theorem State.AgreesWith.getElem?_eq {k : Nat} (hksv : s.ksv = true) (hk : k ≤ s.rounds) : r[k]? = s.rks[k]? := by
  have hlt : k < s.rounds + 1 := Nat.lt_succ_of_le hk
  rw [← List.getElem?_take_of_lt hlt, hagree.2 hksv, List.getElem?_take_of_lt hlt]

/-- An index that passes the checks of R178 names an entry of the valid schedule. -/
theorem State.AgreesWith.withRoundKey (hinv : s.Inv) (k : Byte) (f : Block → Block → Block) :
    AgreeingNext (withRoundKey k s f) (withRoundKey k { s with rks := r } f) := by
  have hcheck : ({ s with rks := r } : State).requireRk k = s.requireRk k := rfl
  cases hk : s.requireRk k with
  | some c =>
    rw [withRoundKey_of_error f hk, withRoundKey_of_error f (hcheck.trans hk), State.raise_eq_withError,
      State.raise_eq_withError]
    exact ⟨_, r, rfl, rfl, hagree⟩
  | none =>
    obtain ⟨hksv, hle⟩ := (s.requireRk_eq_none_iff k).mp hk
    have hentry := hinv.getElem?_rks hksv hle
    have hentry' := (hagree.getElem?_eq hksv hle).trans hentry
    rw [withRoundKey_of_entry f hk hentry, withRoundKey_of_entry f (hcheck.trans hk) hentry']
    exact ⟨_, r, rfl, rfl, hagree⟩

theorem exec_agreeing (hinv : s.Inv) (i : Instr) : AgreeingNext (exec i s) (exec i { s with rks := r }) := by
  cases i with
  | keyexp | enc | dec => exact ⟨_, _, rfl, rfl, hagree.loadSchedule⟩
  | addrk k | round k | finalround k | invround k | invfinalround k => exact hagree.withRoundKey hinv k _
  | _ => exact ⟨_, r, rfl, rfl, hagree⟩

theorem sequencerTurn_agreeing (hinv : s.Inv) :
    AgreeingNext (sequencerTurn s) (sequencerTurn { s with rks := r }) := by
  unfold sequencerTurn completeWord
  dsimp only
  split_ifs
  · exact ⟨_, r, rfl, rfl, hagree⟩
  · split
    · exact ⟨_, r, rfl, rfl, hagree⟩
    · split
      · exact exec_agreeing hagree hinv _
      · rw [State.raise_eq_withError, State.raise_eq_withError]
        exact ⟨_, r, rfl, rfl, hagree⟩

theorem State.AgreesWith.memRead (off : Offset) (size : Nat) : (memRead off size s).AgreesWith r := by
  obtain ⟨_, _, _, _, h⟩ := memRead_frame off size s
  rw [h]; exact hagree

/-- A write that changes KSV or ROUNDS clears KSV, after which any file of the size agrees. -/
theorem State.AgreesWith.memWrite (off : Offset) (size : Nat) (v : Word) : (memWrite off size v s).AgreesWith r := by
  have hrks : (Machine.memWrite off size v s).rks = s.rks := by
    obtain ⟨_, _, _, _, _, _, _, h⟩ := memWrite_frame off size v s
    rw [h]
  unfold State.AgreesWith
  rw [hrks]
  refine ⟨hagree.1, fun hksv => ?_⟩
  rcases memWrite_ksv off size v s with ⟨hsame, hrounds⟩ | ⟨hclear, -⟩
  · rw [hrounds]; exact hagree.2 (hsame ▸ hksv)
  · exact absurd (hclear.symm.trans hksv) nofun

theorem step_agreeing (hinv : s.Inv) : AgreeingNext (step s) (step { s with rks := r }) := by
  rcases s.turn_cases with hs | ⟨off, size, rest, hs⟩ | ⟨off, size, v, rest, hs⟩ | ⟨rest, hs⟩
  · rw [step_of_sequencerNext hs, step_of_sequencerNext (s := { s with rks := r }) hs]
    exact sequencerTurn_agreeing (s := s.popTurn) hagree hinv.popTurn
  · refine ⟨_, r, step_of_read hs, ?_, State.AgreesWith.memRead (s := s.popTurn) hagree off size⟩
    exact (step_of_read (s := { s with rks := r }) hs).trans (congrArg _ (memRead_withRks off size s.popTurn r))
  · refine ⟨_, r, step_of_write hs, ?_, State.AgreesWith.memWrite (s := s.popTurn) hagree off size v⟩
    exact (step_of_write (s := { s with rks := r }) hs).trans (congrArg _ (memWrite_withRks off size v s.popTurn r))
  · exact ⟨_, _, step_of_reset hs, step_of_reset (s := { s with rks := r }) hs, rfl, fun _ => rfl⟩

end Agreement

/-! ## The statements -/

/-- Settles O20: each kind of turn takes files that agree to files that agree, and does the same in both states. -/
theorem staleRoundKeysAreUnobservable : Obligations.StaleRoundKeysAreUnobservable := by
  intro s r hinv hlength htake
  obtain ⟨t, r', hstep, hstep', hagree⟩ := step_agreeing ⟨hlength, htake⟩ hinv
  exact ⟨t, r', hstep, hstep', hagree.1, hagree.2⟩

/-- Settles O21: while SBRDY = 0 the sequencer's only turn is the end of generation, which installs the same tables in
both states, and the host's accesses do not look at the tables; once SBRDY = 1 both states are one. -/
theorem tablesBeforeGenerationAreUnobservable : Obligations.TablesBeforeGenerationAreUnobservable := by
  intro s a b hinv hready
  by_cases hsbrdy : s.sbrdy = true
  · obtain ⟨rfl, rfl⟩ := hready hsbrdy
    obtain ⟨t, hstep⟩ := step_next_of_inv hinv
    exact ⟨t, t.sbox, t.isbox, hstep, hstep, fun _ => ⟨rfl, rfl⟩⟩
  · rcases s.turn_cases with hs | ⟨off, size, rest, hs⟩ | ⟨off, size, v, rest, hs⟩ | ⟨rest, hs⟩
    · have hgen : s.gen = true := by simpa [hsbrdy] using hinv.sbrdy_gen
      exact ⟨_, _, _, step_of_generation hs hgen, step_of_generation (s := { s with sbox := a, isbox := b }) hs hgen,
        fun _ => ⟨rfl, rfl⟩⟩
    · exact ⟨_, a, b, step_of_read hs, (step_of_read (s := { s with sbox := a, isbox := b }) hs).trans
        (congrArg _ (memRead_withTables off size s.popTurn a b)),
        fun h => absurd ((memRead_sbrdy off size s.popTurn).symm.trans h) hsbrdy⟩
    · exact ⟨_, a, b, step_of_write hs, (step_of_write (s := { s with sbox := a, isbox := b }) hs).trans
        (congrArg _ (memWrite_withTables off size v s.popTurn a b)),
        fun h => absurd ((memWrite_sbrdy off size v s.popTurn).symm.trans h) hsbrdy⟩
    · exact ⟨_, _, _, step_of_reset hs, step_of_reset (s := { s with sbox := a, isbox := b }) hs, fun _ => ⟨rfl, rfl⟩⟩

end Sys2Proof.Machine
end

section
/-!
SUPPORT. Steps and runs (10_state.md section 1, 70_reset_and_hazards.md sections 1 and 5): the step of an idle block and of
a reset; a sequencer's turn leaves the block idle; what runs keep, and where they end; then the statements, settled from
these.
-/

-- Proofs are elaborated in order, for the reason given under "Rounds and blocks" above.
set_option deprecated.oldSectionVars true

namespace Sys2Proof.Machine

/-! ## Idle blocks and completions (R21, R23, R239) -/

theorem step_of_idle {s : State} (hseq : s.sequencerNext) (hbusy : s.busy = false) : step s = .next s.popTurn := by
  obtain ⟨hgen, hpend⟩ := (State.busy_eq_false_iff s).mp hbusy
  rw [step_of_sequencerNext hseq, sequencerTurn_of_idle (s := s.popTurn) hgen hpend]

/-- A sequencer's turn ends the busy interval: it ends a generation, during which nothing is pending, or empties PEND. -/
theorem busy_of_sequencerTurn {s t : State} (hinv : s.Inv) (h : sequencerTurn s = .next t) : t.busy = false := by
  rw [State.busy_eq_false_iff]
  rcases sequencerTurn_cases h with ⟨hgen, rfl⟩ | ⟨hgen, hpend, rfl⟩ | ⟨_, _, hgen, -, -, hexec⟩ | ⟨_, _, hgen, -, -, rfl⟩
  · exact ⟨rfl, hinv.gen_pend hgen⟩
  · exact ⟨hgen, hpend⟩
  · obtain ⟨-, -, -, -, -, hkept, -, -, hpend⟩ := exec_frame hexec
    exact ⟨hkept.trans hgen, hpend⟩
  · exact ⟨(State.raise_gen _ _).trans hgen, rfl⟩

theorem busy_of_step {s t : State} (hinv : s.Inv) (hseq : s.sequencerNext) (h : step s = .next t) : t.busy = false :=
  busy_of_sequencerTurn hinv.popTurn ((step_of_sequencerNext hseq).symm.trans h)

/-! ## What runs keep, and where they end (R250) -/

theorem run_again {n : Nat} {s t : State} (h : Host.Core.run core n s = .next t) : t.again = s.again := by
  induction n generalizing s with
  | zero => cases h; rfl
  | succ n ih =>
    obtain ⟨u, hstep, hrun⟩ := run_eq_next core h
    exact (ih hrun).trans (step_turns hstep).2

theorem run_one {s t : State} (h : step s = .next t) : Host.Core.run core 1 s = .next t := run_next core h

/-- While the sequencer is not next, a step takes one turn off the list. -/
theorem length_turns_of_step {s t : State} (hne : s.turns ≠ []) (h : step s = .next t) :
    s.turns.length = t.turns.length + 1 := by
  obtain ⟨a, rest, hs⟩ := List.exists_cons_of_ne_nil hne
  rw [(step_turns h).1, State.popTurn, hs]
  rfl

/-- The sequencer moves at the latest when the list has run out. -/
theorem exists_run_idle {s : State} (hinv : s.Inv) :
    ∃ n t, n ≤ s.turns.length + 1 ∧ Host.Core.run core n s = .next t ∧ t.busy = false := by
  induction hn : s.turns.length generalizing s with
  | zero =>
    obtain ⟨t, hstep⟩ := step_next_of_inv hinv
    exact ⟨1, t, le_rfl, run_one hstep, busy_of_step hinv (.inl (List.length_eq_zero_iff.mp hn)) hstep⟩
  | succ m ih =>
    obtain ⟨u, hstep⟩ := step_next_of_inv hinv
    have hlen := length_turns_of_step (List.ne_nil_of_length_eq_add_one hn) hstep
    obtain ⟨n, t, hle, hrun, hbusy⟩ := ih (step_keeps_inv hinv hstep) (by omega)
    exact ⟨n + 1, t, by omega, (run_next core hstep).trans hrun, hbusy⟩

/-- The step after the last turn listed is the sequencer's, and leaves nothing to come but what comes again. -/
theorem exists_run_out_of_turns {s : State} (hinv : s.Inv) :
    ∃ t, Host.Core.run core (s.turns.length + 1) s = .next t ∧ t.busy = false ∧ t.turns = s.again := by
  induction hn : s.turns.length generalizing s with
  | zero =>
    have hnil := List.length_eq_zero_iff.mp hn
    obtain ⟨t, hstep⟩ := step_next_of_inv hinv
    refine ⟨t, run_one hstep, busy_of_step hinv (.inl hnil) hstep, ?_⟩
    rw [(step_turns hstep).1, State.popTurn_of_nil hnil]
  | succ m ih =>
    obtain ⟨u, hstep⟩ := step_next_of_inv hinv
    have hlen := length_turns_of_step (List.ne_nil_of_length_eq_add_one hn) hstep
    obtain ⟨t, hrun, hbusy, hturns⟩ := ih (step_keeps_inv hinv hstep) (by omega)
    exact ⟨t, (run_next core hstep).trans hrun, hbusy, hturns.trans (step_turns hstep).2⟩

theorem State.observation_of_ended {s : State} (h : s.ended = true) : s.observation = some ⟨s.reads, s.registers⟩ :=
  if_pos h

/-- The turns to come after a step are among those that were to come. -/
theorem State.mem_turns_popTurn {s : State} {turn : Turn} (h : turn ∈ s.popTurn.turns) : turn ∈ s.turns ++ s.again := by
  cases hs : s.turns with
  | nil => simpa [State.popTurn, hs] using h
  | cons a rest =>
    have hrest : turn ∈ rest := by simpa [State.popTurn, hs] using h
    exact List.mem_append_left _ (List.mem_cons_of_mem a hrest)

/-- In an ended run the block is idle, and the sequencer's turn leaves it as it is. -/
theorem step_of_ended {s : State} (h : s.ended = true) :
    step s = .next s.popTurn ∧ s.popTurn.ended = true := by
  obtain ⟨hturns, hbusy⟩ := s.ended_iff.mp h
  have hseq : s.sequencerNext := by
    cases hs : s.turns with
    | nil => exact .inl hs
    | cons a rest =>
      have ha : a = .sequencer := hturns a (List.mem_append_left _ (hs ▸ List.mem_cons_self))
      exact .inr (by rw [hs, ha, List.head?_cons])
  refine ⟨step_of_idle hseq hbusy, s.popTurn.ended_iff.mpr ⟨fun turn hturn => hturns turn ?_, hbusy⟩⟩
  rcases List.mem_append.mp hturn with hturn | hturn
  · exact State.mem_turns_popTurn hturn
  · exact List.mem_append_right _ hturn

/-! ## The statements -/

/-- Settles O6: the sequencer's turn is the completion of the word, which runs the command it decodes to. -/
theorem stepRunsDecodedCommand : Obligations.StepRunsDecodedCommand := by
  intro s w i hseq hgen hpend hdec
  rw [step_of_sequencerNext hseq, sequencerTurn_of_pend (s := s.popTurn) hgen hpend, completeWord, hdec]

/-- Settles O10: BUSY = 0 means that there is neither a generation to end nor a word to complete. -/
theorem idleBlockHoldsEveryRegister : Obligations.IdleBlockHoldsEveryRegister := fun _ => step_of_idle

/-- Settles O11: the reset event takes every register from the reset state, and keeps the turns. -/
theorem resetTurnGivesResetValues : Obligations.ResetTurnGivesResetValues := by
  intro s rest hs
  have hturns : s.popTurn.resetEvent.turns = rest := by simp [State.resetEvent, State.popTurn, hs]
  exact ⟨s.popTurn.resetEvent, step_of_reset hs, Block.ofHex_zero.symm, Block.ofHex_zero.symm, rfl, rfl, rfl, rfl, rfl,
    rfl, rfl, rfl, rfl, hturns, rfl⟩

/-- Settles O19: the sequencer's turn leaves the block idle, and comes at the latest when the turns listed have run out;
an ended run has sequencer's turns to come alone, which change nothing; what comes again is never used up. -/
theorem busyIntervalsAndRunsEnd : Obligations.BusyIntervalsAndRunsEnd := by
  refine ⟨fun s hinv hseq _ => ?_, fun s hinv _ => exists_run_idle hinv, fun s hinv hagain => ?_, fun s o ho => ?_,
    fun n s t hagain hrun => ?_⟩
  · obtain ⟨t, hstep⟩ := step_next_of_inv hinv
    exact ⟨t, hstep, busy_of_step hinv hseq hstep⟩
  · obtain ⟨t, hrun, hbusy, hturns⟩ := exists_run_out_of_turns hinv
    have hnone : t.turns ++ t.again = [] := by rw [hturns, run_again hrun, hagain]; rfl
    have hended : t.ended = true := t.ended_iff.mpr ⟨by rw [hnone]; nofun, hbusy⟩
    exact ⟨t, _, hrun, State.observation_of_ended hended, rfl, rfl⟩
  · obtain ⟨hended, rfl⟩ := (s.observation_eq_some_iff o).mp ho
    obtain ⟨hturns, hbusy⟩ := s.ended_iff.mp hended
    obtain ⟨hstep, hended'⟩ := step_of_ended hended
    exact ⟨hbusy, hturns, s.popTurn, hstep, State.observation_of_ended hended'⟩
  · obtain ⟨turn, hmem, hne⟩ := hagain
    have hgoes : ¬ t.ended = true := fun hended =>
      hne ((t.ended_iff.mp hended).1 turn (List.mem_append_right _ (run_again hrun ▸ hmem)))
    exact if_neg hgoes

end Sys2Proof.Machine
end

section
/-!
SUPPORT. Reads of the window (20_memory.md sections 2 and 4): the rule of a read that reaches its register, and of one
while busy; the word of a block by its bytes, and after it was written; then the statements, settled from these.
-/

-- Proofs are elaborated in order, for the reason given under "Rounds and blocks" above.
set_option deprecated.oldSectionVars true

namespace Sys2Proof

theorem Block.word_setWord_same (b : Block) (k : Fin 4) (v : Word) : (b.setWord k v).word k = v := by
  have hpack : (Vec4.ofWord v).toWord = v := commandWord_fields v
  rw [Block.word, Block.setWord, Block.col_setCol, if_pos rfl, hpack]

/-- GFR and the words of ST are the registers whose reads are unspecified while busy. -/
theorem windowReg_busyUnspecified {off : Offset} (h : off ∈ [0x0c#6, 0x10#6, 0x14#6, 0x18#6, 0x1c#6]) :
    ∃ r, windowReg off = some r ∧ r.busyUnspecified = true := by
  simp only [List.mem_cons, List.not_mem_nil, or_false] at h
  rcases h with rfl | rfl | rfl | rfl | rfl <;> exact ⟨_, rfl, rfl⟩

theorem windowReg_st_or_key {off : Offset}
    (h : off ∈ [0x10#6, 0x14#6, 0x18#6, 0x1c#6, 0x20#6, 0x24#6, 0x28#6, 0x2c#6]) :
    (∃ k, windowReg off = some (.st k)) ∨ ∃ k, windowReg off = some (.key k) := by
  simp only [List.mem_cons, List.not_mem_nil, or_false] at h
  rcases h with rfl | rfl | rfl | rfl | rfl | rfl | rfl | rfl
  iterate 4 exact .inl ⟨_, rfl⟩
  iterate 4 exact .inr ⟨_, rfl⟩

end Sys2Proof

namespace Sys2Proof.Machine

section Reads

variable {s : State} {off : Offset} {r : WindowReg} {rest : List Turn}

/-- A read that returns its register (R48). -/
theorem step_read_of_legal (ht : s.turns = .read off 4 :: rest) (hr : windowReg off = some r)
    (h : r.busyUnspecified = false ∨ s.busy = false) :
    step s = .next { s.popTurn with reads := s.reads ++ [s.window r] } := by
  have ha : accessReg off 4 = some r := (accessReg_eq_some_iff off 4 r).mpr ⟨rfl, hr⟩
  have hwindow : s.popTurn.window r = s.window r := by cases r <;> rfl
  have hread : memRead off 4 s.popTurn = s.popTurn.observe (s.window r) := by
    rcases h with h | h <;> simp [memRead, ha, h, hwindow]
  exact (step_of_read ht).trans (congrArg _ hread)

/-- A read that draws a free value (R55). -/
theorem step_read_of_busy (ht : s.turns = .read off 4 :: rest) (hr : windowReg off = some r)
    (hu : r.busyUnspecified = true) (hb : s.busy = true) : step s = .next s.popTurn.observeFree := by
  have ha : accessReg off 4 = some r := (accessReg_eq_some_iff off 4 r).mpr ⟨rfl, hr⟩
  simp [step_of_read ht, memRead, ha, hu, hb]

end Reads

/-! ## The statements -/

/-- Settles O24: each offset has its register, which the window gives word by word. -/
theorem legalReadsReturnTheRegister : Obligations.LegalReadsReturnTheRegister := by
  intro s off rest ht
  refine ⟨?_, fun hb => ?_⟩
  · simp only [List.forall_mem_cons]
    refine ⟨?_, ?_, ?_, ?_, ?_, ?_, ?_, fun _ h => absurd h List.not_mem_nil⟩ <;> rintro rfl
    · exact step_read_of_legal (r := .cmd) ht rfl (.inl rfl)
    · exact step_read_of_legal (r := .status) ht rfl (.inl rfl)
    · exact step_read_of_legal (r := .rounds) ht rfl (.inl rfl)
    · exact step_read_of_legal (r := .key 0) ht rfl (.inl rfl)
    · exact step_read_of_legal (r := .key 1) ht rfl (.inl rfl)
    · exact step_read_of_legal (r := .key 2) ht rfl (.inl rfl)
    · exact step_read_of_legal (r := .key 3) ht rfl (.inl rfl)
  · simp only [List.forall_mem_cons]
    refine ⟨?_, ?_, ?_, ?_, ?_, fun _ h => absurd h List.not_mem_nil⟩ <;> rintro rfl
    · exact step_read_of_legal (r := .gfr) ht rfl (.inr hb)
    · exact step_read_of_legal (r := .st 0) ht rfl (.inr hb)
    · exact step_read_of_legal (r := .st 1) ht rfl (.inr hb)
    · exact step_read_of_legal (r := .st 2) ht rfl (.inr hb)
    · exact step_read_of_legal (r := .st 3) ht rfl (.inr hb)

/-- Settles O25: STATUS is made of four flags and the four bits of ERRCODE, and is checked at all of their values. -/
theorem statusFieldsSitAtTheirBits : Obligations.StatusFieldsSitAtTheirBits := by
  intro s
  unfold State.status
  generalize s.busy = busy, s.sbrdy = sbrdy, s.ksv = ksv, s.err = err, s.errcode = errcode
  revert busy sbrdy ksv err errcode
  decide

/-- Settles O26: GFR and the words of ST are the registers whose reads draw a free value while busy. -/
theorem busyReadsReturnAFreeValue : Obligations.BusyReadsReturnAFreeValue := by
  intro s off rest ht hb hoff
  obtain ⟨r, hr, hu⟩ := windowReg_busyUnspecified hoff
  exact step_read_of_busy ht hr hu hb

/-- Settles O33: the write leaves the block idle with the word in its register, which the read then returns. -/
theorem writtenWordsReadBack : Obligations.WrittenWordsReadBack := by
  intro s off v rest ht hb hoff
  have hnext : s.popTurn.turns = .read off 4 :: rest := by simp [State.popTurn, ht]
  rcases windowReg_st_or_key hoff with ⟨k, hr⟩ | ⟨k, hr⟩
  · have hword : (s.popTurn.writeSt k v).window (.st k) = v := Block.word_setWord_same s.st k v
    exact ⟨_, _, step_write_of_accepted ht hr (.inr hb),
      step_read_of_legal (s := s.popTurn.writeSt k v) hnext hr (.inr hb), congrArg (s.reads ++ [·]) hword⟩
  · have hword : (s.popTurn.writeKey k v).window (.key k) = v := Block.word_setWord_same s.key k v
    exact ⟨_, _, step_write_of_accepted ht hr (.inr hb),
      step_read_of_legal (s := s.popTurn.writeKey k v) hnext hr (.inl rfl), congrArg (s.reads ++ [·]) hword⟩

end Sys2Proof.Machine
end

section
/-!
SUPPORT. Bytes as polynomials over GF(2) (00_scope.md section 5, 41_gf_arith.md section 1): the polynomial of a sum and of
a power of x; in the ring of polynomials modulo that of 0x11B, xtime is multiplication by X, and so gf_mul is the product;
then the statement, settled from these by the degree of a byte's polynomial.
-/

-- Proofs are elaborated in order, for the reason given under "Rounds and blocks" above.
set_option deprecated.oldSectionVars true

namespace Sys2Proof

open Polynomial

/-! ## The polynomial of a byte (R14) -/

/-- Bit i of a byte is the coefficient of X^i. -/
noncomputable def bytePoly (b : Byte) : (ZMod 2)[X] := ∑ i ∈ Finset.range 8, if b.getLsbD i then X ^ i else 0

/-- X^8 + X^4 + X^3 + X + 1, the polynomial of 0x11B. -/
noncomputable def fieldPoly : (ZMod 2)[X] := X ^ 8 + X ^ 4 + X ^ 3 + X + 1

theorem bytePoly_xor (x y : Byte) : bytePoly (x ^^^ y) = bytePoly x + bytePoly y := by
  simp only [bytePoly, ← Finset.sum_add_distrib]
  refine Finset.sum_congr rfl fun i _ => ?_
  rw [BitVec.getLsbD_xor]
  cases x.getLsbD i <;> cases y.getLsbD i <;> simp [CharTwo.add_self_eq_zero]

theorem bytePoly_zero : bytePoly 0 = 0 := by simp [bytePoly]

theorem getLsbD_xPow (i : Fin 8) : ∀ j < 8, (xPow i).getLsbD j = true ↔ j = i.val := by
  revert i; decide

theorem bytePoly_xPow (i : Fin 8) : bytePoly (xPow i) = X ^ i.val := by
  have hbits : ∀ j ∈ Finset.range 8, (if (xPow i).getLsbD j then (X : (ZMod 2)[X]) ^ j else 0) =
      if j = i.val then X ^ j else 0 :=
    fun j hj => if_congr (getLsbD_xPow i j (Finset.mem_range.mp hj)) rfl rfl
  rw [bytePoly, Finset.sum_congr rfl hbits, Finset.sum_ite_eq', if_pos (Finset.mem_range.mpr i.isLt)]

theorem bytePoly_mem_degreeLT (b : Byte) : bytePoly b ∈ degreeLT (ZMod 2) 8 := by
  refine Submodule.sum_mem _ fun i hi => ?_
  split
  · rw [mem_degreeLT, degree_X_pow]
    exact_mod_cast Finset.mem_range.mp hi
  · exact Submodule.zero_mem _

theorem fieldPoly_monic : fieldPoly.Monic := by
  unfold fieldPoly; monicity!

theorem degree_fieldPoly : fieldPoly.degree = 8 := by
  unfold fieldPoly; compute_degree!

theorem bytePoly_modByMonic (b : Byte) : bytePoly b %ₘ fieldPoly = bytePoly b := by
  rw [modByMonic_eq_self_iff fieldPoly_monic, degree_fieldPoly]
  exact mem_degreeLT.mp (bytePoly_mem_degreeLT b)

/-! ## Modulo the polynomial of 0x11B -/

/-- A property of bytes that holds of the powers of x and passes to sums holds of every byte. -/
theorem byte_induction {P : Byte → Prop} (zero : P 0) (xor : ∀ x y, P x → P y → P (x ^^^ y)) (pow : ∀ i, P (xPow i))
    (x : Byte) : P x := by
  rw [← sumAtBits_xPow x]
  refine List.foldlRecOn _ _ zero fun p hp i _ => ?_
  split
  · exact xor p _ hp (pow i)
  · exact hp

/-- The residue of a byte's polynomial. -/
noncomputable def residue (b : Byte) : AdjoinRoot fieldPoly := AdjoinRoot.mk fieldPoly (bytePoly b)

theorem residue_xor (x y : Byte) : residue (x ^^^ y) = residue x + residue y := by
  rw [residue, bytePoly_xor, map_add, residue, residue]

theorem residue_zero : residue 0 = 0 := by rw [residue, bytePoly_zero, map_zero]

theorem residue_xPow (i : Fin 8) : residue (xPow i) = AdjoinRoot.root fieldPoly ^ i.val := by
  rw [residue, bytePoly_xPow, map_pow, AdjoinRoot.mk_X]

theorem two_eq_zero : (2 : AdjoinRoot fieldPoly) = 0 := by
  rw [← map_ofNat (AdjoinRoot.of fieldPoly) 2, show (OfNat.ofNat 2 : ZMod 2) = 0 from rfl, map_zero]

theorem root_fieldPoly :
    AdjoinRoot.root fieldPoly ^ 8 + AdjoinRoot.root fieldPoly ^ 4 + AdjoinRoot.root fieldPoly ^ 3 +
      AdjoinRoot.root fieldPoly + 1 = 0 := by
  have h : AdjoinRoot.mk fieldPoly (X ^ 8 + X ^ 4 + X ^ 3 + X + 1) = 0 := AdjoinRoot.mk_self
  simpa using h

/-- X^8 leaves the residue X^4 + X^3 + X + 1, which is that of 0x1b. -/
theorem residue_xtime_xPow_seven : residue (xtime (xPow 7)) = AdjoinRoot.root fieldPoly * residue (xPow 7) := by
  have hbyte : xtime (xPow 7) = xPow 4 ^^^ xPow 3 ^^^ xPow 1 ^^^ xPow 0 := by decide
  rw [hbyte]
  simp only [residue_xor, residue_xPow, Fin.coe_ofNat_eq_mod, Nat.reduceMod]
  linear_combination root_fieldPoly - AdjoinRoot.root fieldPoly ^ 8 * two_eq_zero

theorem residue_xtime (a : Byte) : residue (xtime a) = AdjoinRoot.root fieldPoly * residue a := by
  induction a using byte_induction with
  | zero => rw [xorLinear_xtime.apply_zero, residue_zero, mul_zero]
  | xor x y hx hy => rw [xorLinear_xtime, residue_xor, residue_xor, mul_add, hx, hy]
  | pow i =>
    induction i using Fin.lastCases with
    | last => exact residue_xtime_xPow_seven
    | cast i =>
      have hnext : xtime (xPow i.castSucc) = xPow i.succ := (Function.iterate_succ_apply' xtime i.val 1).symm
      rw [hnext, residue_xPow, residue_xPow, ← pow_succ', Fin.val_succ, Fin.val_castSucc]

theorem residue_iterate_xtime (n : Nat) (a : Byte) :
    residue (xtime^[n] a) = AdjoinRoot.root fieldPoly ^ n * residue a := by
  induction n with
  | zero => rw [Function.iterate_zero_apply, pow_zero, one_mul]
  | succ n ih => rw [Function.iterate_succ_apply', residue_xtime, ih, pow_succ', mul_assoc]

/-- Multiplying by x^i is multiplying by x, i times. -/
theorem residue_gfMul (a b : Byte) : residue (gfMul a b) = residue a * residue b := by
  induction a using byte_induction with
  | zero => rw [gfMul_zero_left, residue_zero, zero_mul]
  | xor x y hx hy => rw [xor_gfMul, residue_xor, residue_xor, add_mul, hx, hy]
  | pow i => rw [xPow_gfMul, residue_iterate_xtime, residue_xPow]

theorem bytePoly_gfMul (a b : Byte) : bytePoly (gfMul a b) = (bytePoly a * bytePoly b) %ₘ fieldPoly := by
  have hdvd : fieldPoly ∣ bytePoly (gfMul a b) - bytePoly a * bytePoly b :=
    AdjoinRoot.mk_eq_mk.mp ((residue_gfMul a b).trans (map_mul _ _ _).symm)
  rw [← modByMonic_eq_of_dvd_sub fieldPoly_monic hdvd, bytePoly_modByMonic]

/-! ## The statement -/

/-- Settles O36: the product of two bytes and the product of their polynomials leave the same residue, and a byte's
polynomial, of degree below 8, is its own remainder. -/
theorem gfMulIsPolynomialRemainder : Obligations.GfMulIsPolynomialRemainder :=
  fun a b => ⟨bytePoly_gfMul a b, bytePoly_xor a b⟩

end Sys2Proof
end

section
/-!
SUPPORT. Round keys and blocks by the listed table, evaluated quickly. A vector checked through the definitions looks an
entry up in a list of 256 bytes, and multiplies by a loop over bits, some hundreds of times. Here SBOX is read off one
number and MixColumns is done by doublings; both are proved equal to the definitions, and the vectors of the round keys,
of the rounds and of encrypt (R163, R193, R194, R199) are checked through them.
-/

-- Proofs are elaborated in order, for the reason given under "Rounds and blocks" above.
set_option deprecated.oldSectionVars true

namespace Sys2Proof

/-! ## SBOX as one number -/

/-- The listing of SBOX as one number, entry 0 in the lowest byte. -/
def sboxNumber : Nat := sboxRows.foldr (fun y n => n <<< 8 ||| y.toNat) 0

/-- An entry of the listing of SBOX, read off the number. -/
def quickEntry (a : Byte) : Byte := BitVec.ofNat 8 (sboxNumber >>> (8 * a.toNat))

set_option maxRecDepth 2048 in -- `sboxNumber` folds over 256 entries.
theorem entry_sboxTable_eq_quickEntry (a : Byte) : sboxTable.entry a = quickEntry a :=
  sboxTable.forall_entry (P := fun a y => y = quickEntry a) (by decide) a

theorem subBytes_sboxTable (v : Block) : subBytes sboxTable v = v.map quickEntry := by
  rw [subBytes, funext entry_sboxTable_eq_quickEntry]

theorem subWord_sboxTable (w : Vec4) : subWord sboxTable w = w.map quickEntry := by
  rw [subWord, funext entry_sboxTable_eq_quickEntry]

/-! ## MC by doublings (R174) -/

/-- The rows of MC, written out. -/
theorem mixMatrix_mulVec (x : Vec4) : mixMatrix.mulVec x =
    ⟨gfMul 2 x.b0 ^^^ gfMul 3 x.b1 ^^^ x.b2 ^^^ x.b3, x.b0 ^^^ gfMul 2 x.b1 ^^^ gfMul 3 x.b2 ^^^ x.b3,
     x.b0 ^^^ x.b1 ^^^ gfMul 2 x.b2 ^^^ gfMul 3 x.b3, gfMul 3 x.b0 ^^^ x.b1 ^^^ x.b2 ^^^ gfMul 2 x.b3⟩ := by
  have hone : ∀ a, gfMul 1 a = a := gfMul_one_left
  simp only [Mat4.mulVec, mixMatrix, Vec4.toList, gfDot_four, hone]

theorem two_gfMul (a : Byte) : gfMul 2 a = xtime a := (gfMul_comm 2 a).trans (gfMul_two a)

theorem three_gfMul (a : Byte) : gfMul 3 a = xtime a ^^^ a := by
  rw [show (3 : Byte) = 2 ^^^ 1 from rfl, xor_gfMul, two_gfMul, gfMul_one_left]

/-- A column times MC, with the doubles computed once. -/
def quickMix (x : Vec4) : Vec4 :=
  let d := x.map xtime
  ⟨d.b0 ^^^ (d.b1 ^^^ x.b1) ^^^ x.b2 ^^^ x.b3, x.b0 ^^^ d.b1 ^^^ (d.b2 ^^^ x.b2) ^^^ x.b3,
   x.b0 ^^^ x.b1 ^^^ d.b2 ^^^ (d.b3 ^^^ x.b3), (d.b0 ^^^ x.b0) ^^^ x.b1 ^^^ x.b2 ^^^ d.b3⟩

theorem mixColumns_eq_quickMix (v : Block) : mixColumns v = v.mapCols quickMix := by
  have h : mixMatrix.mulVec = quickMix := funext fun x => by
    rw [mixMatrix_mulVec]; simp only [two_gfMul, three_gfMul]; rfl
  rw [mixColumns, h]

/-! ## Round keys, rounds and blocks -/

/-- `rk[r]` from `rk[r-1]` (R163), with the entries of SBOX read off the number. -/
def quickNextRoundKey (r : Nat) (prev : Block) : Block :=
  let n0 := (((rotateLeft1 prev.c3).map quickEntry).xor (rcon r)).xor prev.c0
  let n1 := n0.xor prev.c1
  let n2 := n1.xor prev.c2
  ⟨n0, n1, n2, n2.xor prev.c3⟩

theorem nextRoundKey_sboxTable (r : Nat) (prev : Block) :
    nextRoundKey sboxTable r prev = quickNextRoundKey r prev := by
  rw [nextRoundKey, subWord_sboxTable]; rfl

/-- `rk[r]` of `expand(key, R)` by the listed table (R163). -/
def quickRoundKey (key : Block) : Nat → Block
  | 0 => key
  | r + 1 => quickNextRoundKey (r + 1) (quickRoundKey key r)

theorem roundKey_sboxTable (key : Block) (r : Nat) : roundKey sboxTable key r = quickRoundKey key r := by
  induction r with
  | zero => rfl
  | succ r ih => rw [roundKey, ih, nextRoundKey_sboxTable, quickRoundKey]

/-- A middle round (R193). -/
def quickRound (v k : Block) : Block := addRoundKey ((shiftRows (v.map quickEntry)).mapCols quickMix) k

theorem cipherRound_sboxTable (v k : Block) : cipherRound sboxTable v k = quickRound v k := by
  rw [cipherRound, subBytes_sboxTable, mixColumns_eq_quickMix, quickRound]

/-- The round key and the state after `n` middle rounds, each round key made from the one before it. -/
def quickRounds (key v : Block) : Nat → Block × Block
  | 0 => (key, v)
  | n + 1 =>
    let (k, w) := quickRounds key v n
    let k' := quickNextRoundKey (n + 1) k
    (k', quickRound w k')

theorem quickRounds_eq (key v : Block) (n : Nat) :
    quickRounds key v n = (roundKey sboxTable key n, middleRounds sboxTable (roundKey sboxTable key) n v) := by
  induction n with
  | zero => rfl
  | succ n ih => rw [quickRounds, ih, middleRounds, cipherRound_sboxTable, roundKey, nextRoundKey_sboxTable]

/-- encrypt with `n + 1` rounds (R190). -/
def quickEncrypt (p key : Block) (n : Nat) : Block :=
  let (k, w) := quickRounds key (addRoundKey p key) n
  addRoundKey (shiftRows (w.map quickEntry)) (quickNextRoundKey (n + 1) k)

theorem encrypt_sboxTable (p key : Block) (n : Nat) : encrypt sboxTable p key (n + 1) = quickEncrypt p key n := by
  simp only [quickEncrypt, quickRounds_eq, ← subBytes_sboxTable, ← nextRoundKey_sboxTable]; rfl

/-! ## The vectors -/

section Vectors

set_option maxRecDepth 2048 -- For `sboxNumber`, as above.

theorem roundKey_zeroKey_one :
    roundKey sboxTable (Block.ofHex 0) 1 = Block.ofHex 0x62636363626363636263636362636363 := by
  rw [roundKey_sboxTable]; decide

theorem roundKey_sourceKey_one : roundKey sboxTable (Block.ofHex 0x2b7e151628aed2a6abf7158809cf4f3c) 1 =
    Block.ofHex 0xa0fafe1788542cb123a339392a6c7605 := by
  rw [roundKey_sboxTable]; decide

theorem roundKey_sourceKey_ten : roundKey sboxTable (Block.ofHex 0x2b7e151628aed2a6abf7158809cf4f3c) 10 =
    Block.ofHex 0xd014f9a8c9ee2589e13f0cc8b6630ca6 := by
  rw [roundKey_sboxTable]; decide

theorem cipherRound_sourceVector :
    cipherRound sboxTable (Block.ofHex 0x5f16707444c1b1cdc98570e962aa3d4f)
      (Block.ofHex 0xa0fafe1788542cb123a339392a6c7605) = Block.ofHex 0x78b27c67a9814313817336d97a153253 := by
  rw [cipherRound_sboxTable]; decide

theorem cipherFinalRound_sourceVector :
    cipherFinalRound sboxTable (Block.ofHex 0xffd314bd59cefed6a8c693e0f9aafec1)
      (Block.ofHex 0xd014f9a8c9ee2589e13f0cc8b6630ca6) = Block.ofHex 0xc69f25d0025a9ef32393f63e2f05b747 := by
  rw [cipherFinalRound, subBytes_sboxTable]; decide

theorem encrypt_sourceVector :
    encrypt sboxTable (Block.ofHex 0x746865626c6f636b627265616b657273)
      (Block.ofHex 0x2b7e151628aed2a6abf7158809cf4f3c) 10 = Block.ofHex 0xc69f25d0025a9ef32393f63e2f05b747 := by
  rw [encrypt_sboxTable]; decide

theorem encrypt_zeroVector :
    encrypt sboxTable (Block.ofHex 0) (Block.ofHex 0) 10 = Block.ofHex 0x66e94bd4ef8a2c3b884cfa59ca342b2e := by
  rw [encrypt_sboxTable]; decide

end Vectors

end Sys2Proof
end

section
/-!
SUPPORT. The S-box command and the key schedule (42_sbox.md section 1, 43_key_schedule.md): a round key gives the columns
of the one before it, so that each round key determines the key; Rcon; the schedule that KEYEXP loads, entry by entry;
then the statements, settled from these.
-/

-- Proofs are elaborated in order, for the reason given under "Rounds and blocks" above.
set_option deprecated.oldSectionVars true

namespace Sys2Proof

/-! ## Sums of columns -/

theorem Vec4.xor_comm (x y : Vec4) : x.xor y = y.xor x := by
  simp only [Vec4.xor, BitVec.xor_comm]

theorem Vec4.xor_assoc (x y z : Vec4) : (x.xor y).xor z = x.xor (y.xor z) := by
  simp only [Vec4.xor, BitVec.xor_assoc]

theorem Vec4.xor_xor_self_left (x y : Vec4) : x.xor (x.xor y) = y := by
  simp [Vec4.xor]

theorem Block.ext_col {v w : Block} (h : ∀ c, v.col c = w.col c) : v = w :=
  Block.ext_at fun r c => by rw [Block.at, h, Block.at]

/-! ## The inversion law (R165) -/

section Inversion

variable (sbox : Table) (r : Nat) (prev : Block)

theorem prev_col_three : prev.col 3 = ((nextRoundKey sbox r prev).col 2).xor ((nextRoundKey sbox r prev).col 3) := by
  rw [col_three_nextRoundKey, Vec4.xor_xor_self_left]

theorem prev_col_two : prev.col 2 = ((nextRoundKey sbox r prev).col 1).xor ((nextRoundKey sbox r prev).col 2) := by
  rw [col_two_nextRoundKey, Vec4.xor_xor_self_left]

theorem prev_col_one : prev.col 1 = ((nextRoundKey sbox r prev).col 0).xor ((nextRoundKey sbox r prev).col 1) := by
  rw [col_one_nextRoundKey, Vec4.xor_xor_self_left]

/-- The first column is masked by a function of the last one. -/
theorem prev_col_zero : prev.col 0 =
    (((nextRoundKey sbox r prev).col 0).xor (subWord sbox (rotateLeft1 (prev.col 3)))).xor (rcon r) := by
  rw [col_zero_nextRoundKey, Vec4.xor_assoc, Vec4.xor_comm, Vec4.xor_xor_self_left]

end Inversion

theorem nextRoundKey_injective (sbox : Table) (r : Nat) : Function.Injective (nextRoundKey sbox r) := by
  intro v w h
  have h3 : v.col 3 = w.col 3 := by rw [prev_col_three sbox r v, h, ← prev_col_three]
  have h2 : v.col 2 = w.col 2 := by rw [prev_col_two sbox r v, h, ← prev_col_two]
  have h1 : v.col 1 = w.col 1 := by rw [prev_col_one sbox r v, h, ← prev_col_one]
  have h0 : v.col 0 = w.col 0 := by rw [prev_col_zero sbox r v, h, h3, ← prev_col_zero]
  exact Block.ext_col fun
    | 0 => h0
    | 1 => h1
    | 2 => h2
    | 3 => h3

theorem roundKey_injective (sbox : Table) (r : Nat) : Function.Injective (roundKey sbox · r) := by
  induction r with
  | zero => exact fun _ _ h => h
  | succ r ih => exact (nextRoundKey_injective sbox (r + 1)).comp ih

/-! ## Rcon (R162) -/

theorem rcon_eq_iterate {r : Nat} (hpos : 1 ≤ r) (hr : r ≤ 255) : rcon r = ⟨(gfMul 0x02)^[r - 1] 0x01, 0, 0, 0⟩ := by
  rw [rcon, gfPow_eq_iterate, Nat.mod_eq_of_lt (by omega)]

end Sys2Proof

namespace Sys2Proof.Machine

/-! ## The schedule that KEYEXP loads (R164) -/

/-- Loading the schedule again writes the same entries over themselves. -/
theorem State.loadSchedule_loadSchedule_rks (s : State) : s.loadSchedule.retire.loadSchedule.rks = s.loadSchedule.rks := by
  have hdrop : s.loadSchedule.rks.drop (s.rounds + 1) = s.rks.drop (s.rounds + 1) := List.drop_left' (length_expand ..)
  calc s.loadSchedule.retire.loadSchedule.rks
    _ = expand s.sbox s.key s.rounds ++ s.loadSchedule.rks.drop (s.rounds + 1) := rfl
    _ = s.loadSchedule.rks := by rw [hdrop, State.loadSchedule_rks]

/-- Once the tables are ready, entry `k` is round key `k` by the listed table. -/
theorem State.Inv.getElem?_loadSchedule {s : State} (hinv : s.Inv) (hready : s.sbrdy = true) {k : Nat}
    (hk : k ≤ s.rounds) : s.loadSchedule.rks[k]? = some (roundKey sboxTable s.key k) := by
  rw [s.getElem?_loadSchedule_of_le hk, getElem?_expand _ _ hk, (hinv.tables hready).1]

/-! ## The statements -/

/-- Settles O43: the listed table is in place, which holds the affine step of the inverse at every byte. -/
theorem sboxCommandComputesAffineOfInverse : Obligations.SboxCommandComputesAffineOfInverse := by
  intro s a hinv hready
  have hentry : s.sbox.entry a = aff (gfInv a) := (hinv.tables hready).1 ▸ entry_sboxTable a
  exact hentry ▸ rfl

/-- Settles O44: KEYEXP loads the schedule, whose entries the vectors are computed from. -/
theorem keyexpLoadsTheSchedule : Obligations.KeyexpLoadsTheSchedule := by
  refine ⟨fun s => ?_, fun w => decode_eq_ok_iff_eq_encode w .keyexp, fun s hinv hready hkey => ?_,
    fun s hinv hready hkey hrounds => ?_⟩
  · exact ⟨s.loadSchedule.retire, rfl, rfl, fun _ => s.getElem?_loadSchedule_of_le,
      fun _ => s.getElem?_loadSchedule_of_gt, _, rfl, s.loadSchedule_loadSchedule_rks⟩
  · refine ⟨_, rfl, (hinv.getElem?_loadSchedule hready hinv.rounds_range.1).trans ?_⟩
    rw [hkey, roundKey_zeroKey_one]
  · refine ⟨_, rfl, (hinv.getElem?_loadSchedule hready (by omega)).trans ?_,
      (hinv.getElem?_loadSchedule hready (by omega)).trans ?_⟩
    · rw [hkey, roundKey_sourceKey_one]
    · rw [hkey, roundKey_sourceKey_ten]

/-- Settles O45: the two word functions are read off, and Rcon is the iterated product below the 255th power. -/
theorem scheduleWordFunctions : Obligations.ScheduleWordFunctions :=
  ⟨fun _ _ _ _ _ => ⟨rfl, rfl⟩, fun _ => rcon_eq_iterate, by decide_cbv, roundKey_sourceKey_one⟩

/-- Settles O47: each column but the first is the sum of two columns of the next round key, and the last one unmasks the
first; so going from one round key to the next loses nothing. -/
theorem keyScheduleIsInvertible : Obligations.KeyScheduleIsInvertible := by
  refine ⟨fun sbox key r hpos => ?_, fun sbox key key' rounds h => ?_⟩
  · cases r with
    | zero => exact absurd hpos (by decide)
    | succ r => exact ⟨prev_col_three .., prev_col_two .., prev_col_one .., prev_col_zero ..⟩
  · rw [getElem?_expand _ _ le_rfl, getElem?_expand _ _ le_rfl, Option.some.injEq] at h
    exact roundKey_injective sbox rounds h

end Sys2Proof.Machine
end

section
/-!
SUPPORT. Transforms, rounds and blocks, the rest (44_transforms.md, 45_rounds_block.md): columns by the written-out
products and bytes by sums; a round-key command in a state whose schedule is valid, and the command that undoes it; ENC
and DEC; then the statements, settled from these.
-/

-- Proofs are elaborated in order, for the reason given under "Rounds and blocks" above.
set_option deprecated.oldSectionVars true

namespace Sys2Proof

/-! ## Columns and bytes (R174, R176) -/

theorem Block.col_mapCols (f : Vec4 → Vec4) (v : Block) (c : Fin 4) : (v.mapCols f).col c = f (v.col c) := by
  fin_cases c <;> rfl

theorem Block.col_xor (v w : Block) (c : Fin 4) : (v.xor w).col c = (v.col c).xor (w.col c) := by
  fin_cases c <;> rfl

theorem Vec4.row_xor (x y : Vec4) (r : Fin 4) : (x.xor y).row r = x.row r ^^^ y.row r := by
  fin_cases r <;> rfl

theorem Block.byte_xor (v w : Block) (i : Fin 16) : (v.xor w).byte i = v.byte i ^^^ w.byte i := by
  simp only [Block.byte, Block.at, Block.col_xor, Vec4.row_xor]

theorem gfDot_const (u : Vec4) (x : Byte) :
    gfDot u.toList [x, x, x, x] = gfMul (u.b0 ^^^ u.b1 ^^^ u.b2 ^^^ u.b3) x := by
  rw [Vec4.toList, gfDot_four, ← xor_gfMul, ← xor_gfMul, ← xor_gfMul]

/-- A matrix whose rows sum to 1 leaves a column of equal bytes as it is. -/
theorem Mat4.mulVec_const {m : Mat4}
    (hsum : ∀ u ∈ [m.row0, m.row1, m.row2, m.row3], u.b0 ^^^ u.b1 ^^^ u.b2 ^^^ u.b3 = 1) (x : Byte) :
    m.mulVec ⟨x, x, x, x⟩ = ⟨x, x, x, x⟩ := by
  have hrow : ∀ u ∈ [m.row0, m.row1, m.row2, m.row3], gfDot u.toList [x, x, x, x] = x := fun u hu => by
    rw [gfDot_const, hsum u hu, gfMul_one_left]
  simp only [List.forall_mem_cons] at hrow
  obtain ⟨h0, h1, h2, h3, -⟩ := hrow
  exact (Vec4.mk.injEq ..).mpr ⟨h0, h1, h2, h3⟩

theorem addRoundKey_zero (v : Block) : addRoundKey v (Block.ofHex 0) = v := by
  rw [Block.ofHex_zero]; simp [addRoundKey, Block.xor, Vec4.xor, Block.zero, Vec4.zero]

theorem zero_addRoundKey (k : Block) : addRoundKey (Block.ofHex 0) k = k := by
  rw [Block.ofHex_zero]; simp [addRoundKey, Block.xor, Vec4.xor, Block.zero, Vec4.zero]

end Sys2Proof

namespace Sys2Proof.Machine

/-! ## Round-key commands (R178) -/

/-- Each round-key command is `withRoundKey` of its composition, which takes the entry that is there. -/
theorem exec_roundKeyCommands {k : Byte} {s : State} {rk : Block} (hksv : s.ksv = true) (hk : k.toNat ≤ s.rounds)
    (hentry : s.rks[k.toNat]? = some rk) :
    exec (.addrk k) s = .next { s with st := addRoundKey s.st rk, pend := none } ∧
    exec (.round k) s = .next { s with st := cipherRound s.sbox s.st rk, pend := none } ∧
    exec (.finalround k) s = .next { s with st := cipherFinalRound s.sbox s.st rk, pend := none } ∧
    exec (.invround k) s = .next { s with st := invCipherRound s.isbox s.st rk, pend := none } ∧
    exec (.invfinalround k) s = .next { s with st := invCipherFinalRound s.isbox s.st rk, pend := none } := by
  have hcheck := (s.requireRk_eq_none_iff k).mpr ⟨hksv, hk⟩
  exact ⟨withRoundKey_of_entry _ hcheck hentry, withRoundKey_of_entry _ hcheck hentry,
    withRoundKey_of_entry _ hcheck hentry, withRoundKey_of_entry _ hcheck hentry,
    withRoundKey_of_entry _ hcheck hentry⟩

/-- After a command that wrote `v` to ST, one whose composition takes `v` back restores the state but for PEND. -/
theorem withRoundKey_undo {k : Byte} {s : State} {rk v : Block} {g : Block → Block → Block} (hksv : s.ksv = true)
    (hk : k.toNat ≤ s.rounds) (hentry : s.rks[k.toNat]? = some rk) (hundo : g v rk = s.st) :
    withRoundKey k (s.setSt v).retire g = .next s.retire := by
  have hcheck : (s.setSt v).retire.requireRk k = none := (State.requireRk_eq_none_iff _ k).mpr ⟨hksv, hk⟩
  have hst : (s.setSt (g v rk)).retire = s.retire := by rw [hundo]; rfl
  exact (withRoundKey_of_entry g hcheck hentry).trans (congrArg _ hst)

/-! ## Round-key commands in a state whose schedule is valid (R28, R178) -/

theorem State.Inv.tables_of_ksv {s : State} (hinv : s.Inv) (hksv : s.ksv = true) :
    s.sbox = sboxTable ∧ s.isbox = isboxTable := hinv.tables (hinv.ksv_sbrdy hksv)

/-- A round-key command writes to ST the value of its composition at the round key by the listed table. -/
theorem State.Inv.withRoundKey_value {s : State} (hinv : s.Inv) (hksv : s.ksv = true) {k : Byte}
    (hk : k.toNat ≤ s.rounds) {f : Block → Block → Block} {v : Block}
    (hval : f s.st (roundKey sboxTable s.key k.toNat) = v) : ∃ t, withRoundKey k s f = .next t ∧ t.st = v := by
  have hcheck : s.requireRk k = none := (s.requireRk_eq_none_iff k).mpr ⟨hksv, hk⟩
  have hentry := hinv.getElem?_rks hksv hk
  rw [(hinv.tables_of_ksv hksv).1] at hentry
  exact ⟨_, withRoundKey_of_entry f hcheck hentry, hval⟩

/-! ## The statements -/

/-- Settles O49: the products are the rows of the two matrices, whose rows sum to 1 and which undo each other. -/
theorem mixAndKeyCommandsWriteSt : Obligations.MixAndKeyCommandsWriteSt := by
  refine ⟨fun s => ⟨⟨_, rfl, fun c => ?_⟩, ⟨_, rfl, fun c => ?_⟩, ⟨_, rfl, ?_⟩⟩, fun w => ?_, fun x => ?_, ?_,
    invMixColumns_mixColumns, fun v k => ?_⟩
  · exact (Block.col_mapCols _ _ c).trans (mixMatrix_mulVec _)
  · exact congrArg Vec4.toList (Block.col_mapCols _ _ c)
  · exact Block.byte_xor s.st s.key
  · exact ⟨decode_eq_ok_iff_eq_encode w _, decode_eq_ok_iff_eq_encode w _, decode_eq_ok_iff_eq_encode w _⟩
  · exact ⟨Mat4.mulVec_const (by decide) x, Mat4.mulVec_const (by decide) x⟩
  · exact ⟨by decide, by decide, by decide⟩
  · exact ⟨addRoundKey_zero v, addRoundKey_addRoundKey v k, zero_addRoundKey k⟩

/-- Settles O50: the listed tables are in place, and the compositions are those that undo the rounds. -/
theorem transformsAreUndone : Obligations.TransformsAreUndone := by
  refine ⟨fun s v hinv hready => ?_, fun v => ?_, addRoundKey_addRoundKey⟩
  · obtain ⟨hsbox, hisbox⟩ := hinv.tables hready
    rw [hsbox, hisbox]
    exact ⟨invSubBytes_subBytes v, subBytes_invSubBytes v⟩
  · exact ⟨invShiftRows_shiftRows v, shiftRows_invShiftRows v, invMixColumns_mixColumns v, mixColumns_invMixColumns v⟩

/-- Settles O51: the index passes the checks and the entry is there; the examples take their round keys from the schedule
of the source's key, and the inverse ones undo the others. -/
theorem roundKeyCommandsWriteSt : Obligations.RoundKeyCommandsWriteSt := by
  refine ⟨fun k s rk hksv hk hentry => exec_roundKeyCommands hksv hk hentry, fun k w => ?_,
    fun s hinv hksv hrounds hkey => ?_⟩
  · exact ⟨decode_eq_ok_iff_eq_encode w _, decode_eq_ok_iff_eq_encode w _, decode_eq_ok_iff_eq_encode w _,
      decode_eq_ok_iff_eq_encode w _, decode_eq_ok_iff_eq_encode w _⟩
  · obtain ⟨hsbox, hisbox⟩ := hinv.tables_of_ksv hksv
    have h0 : (0 : Byte).toNat ≤ s.rounds := Nat.zero_le _
    have h1 : (1 : Byte).toNat ≤ s.rounds := hinv.rounds_range.1
    have h10 : (10 : Byte).toNat ≤ s.rounds := hrounds.ge
    have hrk1 : roundKey sboxTable s.key (1 : Byte).toNat = Block.ofHex 0xa0fafe1788542cb123a339392a6c7605 :=
      hkey ▸ roundKey_sourceKey_one
    have hrk10 : roundKey sboxTable s.key (10 : Byte).toNat = Block.ofHex 0xd014f9a8c9ee2589e13f0cc8b6630ca6 :=
      hkey ▸ roundKey_sourceKey_ten
    simp only [List.forall_mem_cons]
    refine ⟨?_, ?_, ?_, ?_, ?_, ?_, fun _ h => absurd h List.not_mem_nil⟩ <;> intro hst
    · exact hinv.withRoundKey_value hksv h1 (by rw [hst, hrk1, zero_addRoundKey])
    · exact hinv.withRoundKey_value hksv h0 (hst ▸ zero_addRoundKey s.key)
    · exact hinv.withRoundKey_value hksv h1 (by rw [hst, hrk1, hsbox, cipherRound_sourceVector])
    · exact hinv.withRoundKey_value hksv h10 (by rw [hst, hrk10, hsbox, cipherFinalRound_sourceVector])
    · exact hinv.withRoundKey_value hksv h1
        (by rw [hst, hrk1, hisbox, ← cipherRound_sourceVector, invCipherRound_cipherRound])
    · exact hinv.withRoundKey_value hksv h10
        (by rw [hst, hrk10, hisbox, ← cipherFinalRound_sourceVector, invCipherFinalRound_cipherFinalRound])

/-- Settles O52: a valid schedule holds the round key of each index up to ROUNDS. -/
theorem roundKeyCommandsUseTheCurrentSchedule : Obligations.RoundKeyCommandsUseTheCurrentSchedule :=
  fun _ _ hinv hksv hk =>
    ⟨_, getElem?_expand _ _ hk, exec_roundKeyCommands hksv hk (hinv.getElem?_rks hksv hk)⟩

/-- Settles O54: both commands of a pair take the same round key, and their compositions undo each other. -/
theorem inverseRoundsUndoRounds : Obligations.InverseRoundsUndoRounds := by
  intro k s hinv hksv hk
  obtain ⟨hsbox, hisbox⟩ := hinv.tables_of_ksv hksv
  obtain ⟨rk, hentry⟩ : ∃ rk, s.rks[k.toNat]? = some rk := ⟨_, hinv.getElem?_rks hksv hk⟩
  obtain ⟨-, hround, hfinal, -⟩ := exec_roundKeyCommands hksv hk hentry
  have hundo : invCipherRound s.isbox (cipherRound s.sbox s.st rk) rk = s.st := by
    rw [hsbox, hisbox, invCipherRound_cipherRound]
  have hundoFinal : invCipherFinalRound s.isbox (cipherFinalRound s.sbox s.st rk) rk = s.st := by
    rw [hsbox, hisbox, invCipherFinalRound_cipherFinalRound]
  rw [execAll_cons hround, execAll_cons hfinal]
  exact ⟨execAll_singleton (withRoundKey_undo hksv hk hentry hundo),
    execAll_singleton (withRoundKey_undo hksv hk hentry hundoFinal)⟩

/-- Settles O55: both commands load the schedule and write ST. -/
theorem blockCommandsWriteStAndSchedule : Obligations.BlockCommandsWriteStAndSchedule :=
  ⟨fun s => ⟨_, _, rfl, rfl, rfl, rfl, fun _ => s.getElem?_loadSchedule_of_le, fun _ => s.getElem?_loadSchedule_of_gt⟩,
    fun w => ⟨decode_eq_ok_iff_eq_encode w .enc, decode_eq_ok_iff_eq_encode w .dec⟩⟩

/-- Settles O56: the ciphertexts are computed by the listed table, and decryption undoes encryption. -/
theorem sourceKnownAnswers : Obligations.SourceKnownAnswers := by
  intro s hinv hready hrounds
  obtain ⟨hsbox, hisbox⟩ := hinv.tables hready
  refine ⟨fun hkey hst => ⟨_, rfl, ?_⟩, fun hkey hst => ⟨_, rfl, ?_⟩, fun hkey hst => ⟨_, rfl, ?_⟩⟩
  · show encrypt s.sbox s.st s.key s.rounds = _
    rw [hsbox, hst, hkey, hrounds, encrypt_sourceVector]
  · show decrypt s.sbox s.isbox s.st s.key s.rounds = _
    rw [hsbox, hisbox, hst, hkey, hrounds, ← encrypt_sourceVector, decrypt_encrypt]
  · show encrypt s.sbox s.st s.key s.rounds = _
    rw [hsbox, hst, hkey, hrounds, encrypt_zeroVector]

/-- Settles O58: ENC leaves a valid schedule, under which DEC changes ST alone, and decrypts what ENC encrypted. -/
theorem encThenDecRestoresSt : Obligations.EncThenDecRestoresSt := by
  intro s hinv hready
  obtain ⟨hsbox, hisbox⟩ := hinv.tables hready
  have hgen : s.gen = false := by simpa [hready] using hinv.sbrdy_gen
  have henc : exec .enc s = .next (s.loadSchedule.setSt (encrypt s.sbox s.st s.key s.rounds)).retire := rfl
  have hst : decrypt s.sbox s.isbox (encrypt s.sbox s.st s.key s.rounds) s.key s.rounds = s.st := by
    rw [hsbox, hisbox, decrypt_encrypt]
  exact ⟨_, _, henc, exec_dec_of_validSchedule (exec_keeps_inv hinv hgen henc) rfl,
    congrArg (fun v => (State.setSt _ v).retire) hst⟩

end Sys2Proof.Machine
end

section
/-!
SUPPORT. Control commands (46_control.md): the words with the opcodes of NOP and CLRERR that are illegal, and the STATUS
word after CLRERR; then the statement, settled from these.
-/

-- Proofs are elaborated in order, for the reason given under "Rounds and blocks" above.
set_option deprecated.oldSectionVars true

namespace Sys2Proof

/-- A word that decodes has the OP of its command. -/
theorem fieldOp_of_decode {w : Word} {i : Instr} (h : decode w = .ok i) : fieldOp w = i.opcode.code := by
  rw [(decode_eq_ok_iff_eq_encode w i).mp h, (encode_layout i).1]

/-- NOP and CLRERR have one word each, with nothing above bit 7 (R73). -/
theorem decode_ne_ok_of_control {w : Word} (hop : fieldOp w = 0x00 ∨ fieldOp w = 0x01) (hbits : w >>> 8 ≠ 0) (i : Instr) :
    decode w ≠ .ok i := by
  intro h
  have hcode := fieldOp_of_decode h
  obtain rfl := (decode_eq_ok_iff_eq_encode w i).mp h
  rcases hop with hop | hop
  · have hi : i.opcode = .nop := Opcode.code_injective (hcode.symm.trans hop)
    obtain rfl : i = .nop := by revert hi; cases i <;> simp [Instr.opcode]
    exact hbits (by decide)
  · obtain rfl : i = .clrerr := Instr.eq_clrerr_of_opcode (Opcode.code_injective (hcode.symm.trans hop))
    exact hbits (by decide)

end Sys2Proof

namespace Sys2Proof.Machine

/-- R211: with nothing pending, CLRERR clears ERR and ERRCODE in STATUS and leaves its other fields. -/
theorem State.status_clearError_retire {s : State} (hpend : s.pend = none) :
    s.clearError.retire.status = 0#24 ++ 0#4 ++ BitVec.ofBool false ++ BitVec.ofBool s.ksv ++ BitVec.ofBool s.sbrdy
      ++ BitVec.ofBool s.busy := by
  have hbusy : s.clearError.retire.busy = s.busy := by simp [State.busy, hpend]
  rw [State.status, hbusy]
  rfl

/-! ## The statement -/

/-- Settles O60: each command is one update, and has the word of its encoding, which no other word with its opcode is; the
flags of the example are read off its STATUS word. -/
theorem controlCommandsComplete : Obligations.ControlCommandsComplete := by
  refine ⟨fun s => ⟨rfl, rfl⟩, fun w => ⟨decode_eq_ok_iff_eq_encode w .nop, decode_eq_ok_iff_eq_encode w .clrerr⟩,
    fun s w hseq hgen hpend hop hbits => ?_, fun s hpend hstatus => ⟨_, rfl, ?_⟩⟩
  · exact step_of_illegalWord hseq hgen hpend (decode_ne_ok_of_control hop hbits)
  · obtain ⟨hbusy, hsbrdy, hksv, -⟩ := statusFieldsSitAtTheirBits s
    rw [State.status_clearError_retire hpend, ← hbusy, ← hsbrdy, ← hksv, hstatus]
    decide

end Sys2Proof.Machine
end
